-- ==== Sys2Proof/Word.lean ====
section
/-!
DEFINITION. The plain data the spec computes with: bytes, byte sequences, strings, and the snapshot record
(spec/00_scope.md R9, R10, R12; spec/10_state.md R32 to R35).
-/

namespace Sys2Proof

/-- An unsigned 8-bit value; bit 7 is the most significant (R9). -/
abbrev Byte := BitVec 8

/-- A finite sequence of bytes, indexed from 0 (R10). -/
abbrev Bytes := List Byte

/-- A finite sequence of characters; a `Char` is one Unicode scalar value, and lengths count them (R10, D5). -/
abbrev Str := List Char

/-- One text line of the snapshot: exactly 40 characters (R33). -/
abbrev Line := Vector Char 40

/-- The snapshot record `F-SNAP` (R32 to R35, R100): 8 led booleans, 8 lines of 40 characters, the ordered list of
attribute tokens. -/
structure Snapshot where
  /-- `led[k]`, k = 0..7 (R32). -/
  led : Vector Bool 8
  /-- `line[i]`, i = 0..7 (R33). -/
  line : Vector Line 8
  /-- The tokens in column order, duplicates kept (R34). -/
  attr : List Str
  deriving DecidableEq, Repr, Inhabited

/-- The three error variants of the decoder, exactly these (R163). -/
inductive DecodeError where
  /-- The response is absent (R151). -/
  | notConnected
  /-- The frame-start marker is wrong (R152). -/
  | communicationError
  /-- The response is too short (R151, R153). -/
  | malformed
  deriving DecidableEq, Repr, Inhabited

/-- What DECODE returns: `Ok(s)` or `Err(e)` (R12). -/
inductive DecodeResult where
  | ok (s : Str)
  | err (e : DecodeError)
  deriving DecidableEq, Repr, Inhabited

end Sys2Proof
end

