-- ==== Sys2Proof/Machine/Constants.lean ====
section
/-!
DEFINITION. The fixed parameters of spec/00_scope.md R7, under the spec's own names, and `RX_CAP` of R8.
-/

namespace Sys2Proof.Machine

/-- `SYNC`: each of the three sync bytes of a command frame. -/
def syncByte : Byte := 0x55

/-- `LENB`: the fixed length byte of a command frame. -/
def lenByte : Byte := 0x01

/-- `CMD_LEN`: bytes in a command frame, the size of the space TX. -/
def cmdLen : Nat := 6

/-- `CMD_DISPLAY`: command code of the display query. -/
def cmdDisplay : Byte := 0x80

/-- `RESP_SIZE`: bytes in the response to the display query. -/
def respSize : Nat := 371

/-- `RX_CAP`: capacity of the receive buffer, the size of the space RX (R8, D29). -/
def rxCap : Nat := 371

/-- `MARK`: each of the three frame-start marker bytes. -/
def markByte : Byte := 0xAA

/-- `LED_OFF`: offset of the led status byte. -/
def ledOff : Nat := 8

/-- `GLYPH_OFF`: offset of the first glyph byte (resolved, 90_conflicts.md C1). -/
def glyphOff : Nat := 9

/-- `ROWS`: text rows. -/
def rows : Nat := 8

/-- `COLS`: glyphs per row, and attribute bytes. -/
def cols : Nat := 40

/-- `ATTR_OFF`: offset of the first attribute byte. -/
def attrOff : Nat := 329

/-- `ATTR_N`: attribute bytes. -/
def attrN : Nat := 40

/-- `ATTR_SEP`: separator between attribute tokens. -/
def attrSep : Str := [';']

/-- `PLACEHOLDER`: reset value of `lastDecoded`. -/
def placeholder : Str := [' ']

/-- `CMAP_DEFAULT`: glyph of a byte with no table entry. -/
def cmapDefault : Str := [' ']

/-- `T_READ`, in milliseconds. -/
def tReadMs : Nat := 100

/-- `T_WRITE`, in milliseconds. -/
def tWriteMs : Nat := 100

/-- `T_HOLD`, in milliseconds. -/
def tHoldMs : Nat := 1000

/-- `PWR_REPS`: repetitions of the power-on sequence. -/
def pwrReps : Nat := 3

/-- `IDLE_LINES` as (dtr, rts): RTS cleared, DTR asserted. -/
def idleLines : Bool × Bool := (true, false)

/-- `ACTIVE_LINES` as (dtr, rts): DTR cleared, RTS set. -/
def activeLines : Bool × Bool := (false, true)

end Sys2Proof.Machine
end

