-- ==== Sys2Proof/Machine/Operands.lean ====
section
/-!
DEFINITION. How operands are read and text is made: bit and decimal rendering, join and split (spec/00_scope.md R11),
the offsets of the response frame (spec/30_encoding.md R94), the character-map lookup (spec/42_character_map.md R180).
-/

namespace Sys2Proof.Machine

/-- `bin8(b)`: character k is '1' when bit 7-k is 1, most significant bit first (R11, R154). -/
def bin8 (b : Byte) : Str :=
  [7, 6, 5, 4, 3, 2, 1, 0].map fun k => if b.getLsbD k then '1' else '0'

/-- The decimal digit `n`, for `n < 10`. -/
def digit (n : Nat) : Char := Char.ofNat (48 + n)

/-- `dec(b)`: the unsigned decimal numeral, no leading zeros, at least one digit (R11, R158, D9). -/
def dec (b : Byte) : Str :=
  let n := b.toNat
  if n < 10 then [digit n]
  else if n < 100 then [digit (n / 10), digit (n % 10)]
  else [digit (n / 100), digit (n / 10 % 10), digit (n % 10)]

/-- `join(t, [s0, ..., sk])`: k separators for k+1 items (R11). -/
def join (t : Str) : List Str → Str
  | [] => []
  | [x] => x
  | x :: y :: r => x ++ t ++ join t (y :: r)

/-- Put a character in front of the first piece. -/
def consHead (c : Char) : List Str → List Str
  | [] => [[c]]
  | p :: ps => (c :: p) :: ps

/-- The scan of `split`: `skip` counts the characters of a found separator still to be passed over, so that
occurrences do not overlap. -/
def splitFrom (t : Str) : Str → Nat → List Str
  | [], _ => [[]]
  | _ :: cs, skip + 1 => splitFrom t cs skip
  | c :: cs, 0 =>
    if t.isPrefixOf (c :: cs) then [] :: splitFrom t cs (t.length - 1)
    else consHead c (splitFrom t cs 0)

/-- `split(s, t)`, for `len(t) >= 1`: left to right, non-overlapping, empty pieces kept (R11, D33). -/
def split (s t : Str) : List Str := splitFrom t s 0

/-- Does `t` occur in `s` (R8, "contains no SEP")? -/
def occurs (t : Str) : Str → Bool
  | [] => t.isEmpty
  | c :: cs => t.isPrefixOf (c :: cs) || occurs t cs

/-- Byte `i` of a response that is known to be long enough: every caller has made the length check of R151 or R153
before, so the value beyond the end is never used (R67, R94). -/
def byteAt (raw : Bytes) (i : Nat) : Byte := raw.getD i 0

/-- Offset of glyph (r, c) (R94). -/
def glyphOffset (r c : Nat) : Nat := glyphOff + cols * r + c

/-- Offset of attribute c (R94). -/
def attrOffset (c : Nat) : Nat := attrOff + c

/-- `CMAP(b)` over a table of explicit entries: the entry, or one space where there is none (R180, R183). -/
def glyphOf (table : List (Byte × Str)) (b : Byte) : Str := (table.lookup b).getD cmapDefault

/-- `take(40, s)` as a line of the snapshot. PARSE uses it only for `len(s) >= 40` (R211); the padding is never used
there. -/
def lineOfStr (s : Str) : Line := ⟨((s ++ List.replicate 40 ' ').take 40).toArray, by simp⟩

/-- `led[k]` for k = 0..7: true iff character k is '1' (R211, D34). -/
def ledOfStr (s : Str) : Vector Bool 8 :=
  #v[s.getD 0 ' ' == '1', s.getD 1 ' ' == '1', s.getD 2 ' ' == '1', s.getD 3 ' ' == '1',
     s.getD 4 ' ' == '1', s.getD 5 ' ' == '1', s.getD 6 ' ' == '1', s.getD 7 ' ' == '1']

end Sys2Proof.Machine
end

