-- ==== Sys2Proof/Syntax.lean ====
section
/-!
DEFINITION. The operations, one constructor per row of spec/opcode_table.json, and the requests that carry them
(spec/30_encoding.md R90, R95, R96).
-/

namespace Sys2Proof

/-- The instructions of spec/opcode_table.json. -/
inductive Instr where
  /-- `CMDFRAME c`, wire form 55 55 55 01 c c (R123). -/
  | cmdframe (c : Byte)
  /-- `QUERY_DISPLAY`, wire form 55 55 55 01 80 80 (R106). -/
  | queryDisplay
  /-- `RESP_DISPLAY`, a display response frame (R93, R150). -/
  | respDisplay (raw : Bytes)
  /-- `SETUP pid`, code 0 (R121). -/
  | setup (pid : Option Str)
  /-- `EXCHANGE c, n`, code 1 (R124). -/
  | exchange (c : Byte) (n : Nat)
  /-- `POWERON`, code 2 (R131). -/
  | poweron
  /-- `POLL`, code 3 (R201). -/
  | poll
  /-- `GETSNAPSHOT`, code 4 (R214). -/
  | getsnapshot
  /-- `DECODE raw`, code 5 (R150). -/
  | decode (raw : Option Bytes)
  /-- `PARSE s`, code 6 (R208). -/
  | parse (s : Str)
  /-- `CMAP b`, code 7 (R180). -/
  | cmap (b : Byte)
  deriving DecidableEq, Repr

/-- The operand lanes of a host operation request: the operands of R96, each of the type the spec gives it. The spec
gives operands no bits, so an operation reads its own lanes and no other (DESIGN CHOICE, log 11). -/
structure Operands where
  /-- SETUP's port identifier. -/
  pid : Option Str := none
  /-- EXCHANGE's command code. -/
  c : Byte := 0
  /-- EXCHANGE's response size. -/
  n : Nat := 0
  /-- DECODE's response. -/
  raw : Option Bytes := none
  /-- PARSE's string. -/
  s : Str := []
  /-- CMAP's byte. -/
  b : Byte := 0
  deriving DecidableEq, Repr

/-- What a caller presents: a host operation request `F-HOSTOP`, or a wire frame of the table's formats `F-CMD` and
`F-RESP` (R90). -/
inductive Request where
  /-- The 3-bit operation code with its operands (R95). -/
  | hostop (op : BitVec 3) (arg : Operands)
  /-- The bytes of a frame, byte 0 first (R91, R93). -/
  | wire (bytes : Bytes)
  deriving DecidableEq, Repr

/-- Why the bytes of a wire frame are no frame of the table. Such a frame is not refused: it gets the answer of R103. -/
inductive DecodeReject where
  /-- Neither six bytes nor a frame that starts with the marker. -/
  | unknownFrame
  /-- Six bytes whose first three are not all 0x55 (R91). -/
  | badSync
  /-- The length byte is not 0x01 (R91). -/
  | badLengthByte
  /-- The trailer is not the command code again (R91). -/
  | trailerMismatch
  /-- The marker is there, but fewer than 371 bytes (R90, R93). -/
  | shortResponse
  /-- The marker is there, but more than 371 bytes: no variable-length wire form exists (R90, R104). -/
  | longResponse
  deriving DecidableEq, Repr

end Sys2Proof
end

