-- ==== Sys2Proof/WellFormed.lean ====
section
/-!
DEFINITION. The operand ranges of spec/opcode_table.json, as a check on instructions.
-/

namespace Sys2Proof

open Machine

/-- Are the operands in the ranges the table gives: `n` in 0..371 for EXCHANGE; for RESP_DISPLAY the 371 bytes of R90,
the marker first (R93)? Every other operand takes every value of its type. -/
def Instr.wellFormed : Instr → Bool
  | .exchange _ n => decide (n ≤ rxCap)
  | .respDisplay raw =>
    decide (raw.length = respSize) && byteAt raw 0 == markByte && byteAt raw 1 == markByte && byteAt raw 2 == markByte
  | .cmdframe _ | .queryDisplay | .setup _ | .poweron | .poll | .getsnapshot | .decode _ | .parse _ | .cmap _ => true

/-- The check as a proposition. -/
abbrev Instr.WellFormed (i : Instr) : Prop := i.wellFormed = true

end Sys2Proof
end

