-- ==== Sys2Proof/Decode.lean ====
section
/-!
DEFINITION. Decoding, total on any request, rejecting by name (spec/30_encoding.md R91, R93, R95, R96, R103), and after it
the encoder, written from the same tables.
-/

namespace Sys2Proof

open Machine

/-- A host operation request: all eight codes are assigned (R95, R96). -/
def decodeHostOp (op : BitVec 3) (arg : Operands) : Instr :=
  match op.toNat with
  | 0 => .setup arg.pid
  | 1 => .exchange arg.c arg.n
  | 2 => .poweron
  | 3 => .poll
  | 4 => .getsnapshot
  | 5 => .decode arg.raw
  | 6 => .parse arg.s
  | _ => .cmap arg.b

/-- A six-byte frame of format `F-CMD` (R91). The words 55 55 55 01 80 80 are the row QUERY_DISPLAY's, the one with more
fixed bits (R106; DEDUCED, log 10). -/
def decodeCommand (b0 b1 b2 b3 b4 b5 : Byte) : Except DecodeReject Instr :=
  if b0 ≠ syncByte ∨ b1 ≠ syncByte ∨ b2 ≠ syncByte then .error .badSync
  else if b3 ≠ lenByte then .error .badLengthByte
  else if b5 ≠ b4 then .error .trailerMismatch
  else if b4 = cmdDisplay then .ok .queryDisplay
  else .ok (.cmdframe b4)

/-- Does a frame start with the marker? The match for "this is a display response" is on the first 24 bits only (R93). -/
def startsWithMark (bytes : Bytes) : Bool :=
  decide (3 ≤ bytes.length) && byteAt bytes 0 == markByte && byteAt bytes 1 == markByte && byteAt bytes 2 == markByte

/-- The bytes of a wire frame: both formats have one length (R90, R91, R93, R104). -/
def decodeWire (bytes : Bytes) : Except DecodeReject Instr :=
  if startsWithMark bytes then
    if bytes.length < respSize then .error .shortResponse
    else if respSize < bytes.length then .error .longResponse
    else .ok (.respDisplay bytes)
  else
    match bytes with
    | [b0, b1, b2, b3, b4, b5] => decodeCommand b0 b1 b2 b3 b4 b5
    | _ => .error .unknownFrame

/-- The instruction a request carries. -/
def decode : Request → Except DecodeReject Instr
  | .hostop op arg => .ok (decodeHostOp op arg)
  | .wire bytes => decodeWire bytes

/-- The six bytes of `F-CMD` for command code c (R91, R92). -/
def frameBytes (c : Byte) : Bytes := [syncByte, syncByte, syncByte, lenByte, c, c]

/-- The request that carries an instruction, written from R91, R93 and R96. -/
def encode : Instr → Request
  | .cmdframe c => .wire (frameBytes c)
  | .queryDisplay => .wire (frameBytes cmdDisplay)
  | .respDisplay raw => .wire raw
  | .setup pid => .hostop 0 { pid := pid }
  | .exchange c n => .hostop 1 { c := c, n := n }
  | .poweron => .hostop 2 {}
  | .poll => .hostop 3 {}
  | .getsnapshot => .hostop 4 {}
  | .decode raw => .hostop 5 { raw := raw }
  | .parse s => .hostop 6 { s := s }
  | .cmap b => .hostop 7 { b := b }

/-- The `k` low bytes of `w`, most significant first, in front of `acc`: byte 0 of a pattern is its highest byte (R91:
byte 0 is bits 47..40; R93: byte i is bits 2967-8i to 2960-8i). -/
def bytesOfNat : Nat → Nat → Bytes → Bytes
  | 0, _, acc => acc
  | k + 1, w, acc => bytesOfNat k (w / 256) (BitVec.ofNat 8 w :: acc)

/-- The request whose bits are `w` as spec/opcode_table.json numbers them: at most one byte is a 3-bit operation code with
operands of zeros, anything longer is a wire frame. -/
def requestOfTableWord (nbits w : Nat) : Request :=
  if nbits ≤ 8 ∧ w < 8 then .hostop (BitVec.ofNat 3 w) {}
  else .wire (bytesOfNat ((nbits + 7) / 8) w [])

/-- The instruction the decoder reads from a table word. -/
def decodeTableWord (nbits w : Nat) : Option Instr :=
  match decode (requestOfTableWord nbits w) with
  | .ok i => some i
  | .error _ => none

end Sys2Proof
end

