-- ==== Sys2Proof/Config.lean ====
section
/-!
DEFINITION. What an implementation fixes and what the spec leaves open: the open parameters of spec/00_scope.md R8 with
the constraints they meet, the spec's own test instance T0, and the free values (opaque constants with no body: nothing in
Lean can evaluate them or prove a value of them).
-/

namespace Sys2Proof

open Machine

/-- The answers a `LinkWrite` can give: "bool/err" (R127, R245). -/
inductive WriteAnswer where
  | accepted
  | rejected
  | err
  deriving DecidableEq, Repr, Inhabited

/-- The answers a `Sleep` can give (R13, R133, R135). -/
inductive SleepAnswer where
  | elapsed
  | interrupted
  deriving DecidableEq, Repr, Inhabited

/-- The open parameters of R8. A model takes each as an argument; a claim may assume only the constraints listed
(`Params.Admissible`). They are constants: no operation writes them (R39, R192). `SEP` has at least one character, so it is
held as a first character and the rest. -/
structure Params where
  /-- First character of `SEP`. -/
  sepHead : Char
  /-- The rest of `SEP`. -/
  sepTail : Str
  /-- `MSG_NC`, error text for NotConnected. -/
  msgNc : Str
  /-- `MSG_COMM`, error text for CommunicationError. -/
  msgComm : Str
  /-- `MSG_MALF`, error text for Malformed. -/
  msgMalf : Str
  /-- `ERR_TOKEN`, the error-state token PARSE rejects as a first field. -/
  errToken : Str
  /-- The explicit entries of `CMAP`; a byte with none maps to one space (R183). -/
  glyphs : List (Byte × Str)
  /-- `SNAP_RESET`, the snapshot before the first successful parse; no constraint. -/
  snapReset : Snapshot
  /-- `ATTR_ROW_BIT`: which bit of an attribute byte belongs to which row; no rule reads it (D19). -/
  attrRowBit : Vector (Fin 8) 8
  deriving DecidableEq, Repr

/-- `SEP`, the one separator token of the canonical string (R97). -/
def Params.sep (p : Params) : Str := p.sepHead :: p.sepTail

/-- `CMAP(b)` (R180). -/
def Params.glyph (p : Params) (b : Byte) : Str := glyphOf p.glyphs b

/-- The eleven keys of `CMAP_HI` (R188). -/
def highKeys : List Byte := [0x80, 0x99, 0x9A, 0x9B, 0x9D, 0x9E, 0xA7, 0xA8, 0xA9, 0xAA, 0xAE]

/-- The infinity glyph of R189: the one character U+221E. The spec names the glyph; its code point is the candidate of
93_implementation_defined.md G3 (PRESUMED, log 16). -/
def infinityGlyph : Str := [Char.ofNat 0x221E]

/-- The constraints of R8 on the error texts: at least 2 characters, no `SEP` inside, pairwise different. -/
abbrev Params.TextsOk (p : Params) : Prop :=
  2 ≤ p.msgNc.length ∧ 2 ≤ p.msgComm.length ∧ 2 ≤ p.msgMalf.length ∧
  occurs p.sep p.msgNc = false ∧ occurs p.sep p.msgComm = false ∧ occurs p.sep p.msgMalf = false ∧
  p.msgNc ≠ p.msgComm ∧ p.msgNc ≠ p.msgMalf ∧ p.msgComm ≠ p.msgMalf

/-- `ERR_TOKEN` is never an 8-character string over '0' and '1' (D8, 93_implementation_defined.md U3). -/
abbrev Params.ErrTokenOk (p : Params) : Prop :=
  ¬ (p.errToken.length = 8 ∧ ∀ c ∈ p.errToken, c = '0' ∨ c = '1')

/-- What R193 lets a claim assume of the entries of `CMAP`: `cmap_len_le_2`, `cmap_A`, `cmap_a`, `cmap_bslash`,
`cmap_5f_empty`, `cmap_5b_5d_len2`, and the length of the high entries (R188). -/
abbrev Params.EntriesOk (p : Params) : Prop :=
  (∀ e ∈ p.glyphs, e.2.length ≤ 2) ∧
  p.glyph 0x21 = ['A'] ∧ p.glyph 0x41 = ['a'] ∧
  p.glyph 0x07 = ['\\'] ∧ p.glyph 0x3C = ['\\'] ∧
  p.glyph 0x5F = [] ∧
  (p.glyph 0x5B).length = 2 ∧ (p.glyph 0x5B).getD 1 'x' = ' ' ∧
  (p.glyph 0x5D).length = 2 ∧ (p.glyph 0x5D).getD 0 'x' = ' ' ∧
  ∀ k ∈ highKeys, 1 ≤ (p.glyph k).length

/-- `cmap_inf_twice`: two different high keys map to the infinity glyph (R189, R193). -/
abbrev Params.InfinityTwice (p : Params) : Prop :=
  ∃ k ∈ highKeys, ∃ j ∈ highKeys, k ≠ j ∧ p.glyph k = infinityGlyph ∧ p.glyph j = infinityGlyph

/-- What a claim may assume of `CMAP` (R193), `cmap_region` apart. -/
abbrev Params.CmapOk (p : Params) : Prop := p.EntriesOk ∧ p.InfinityTwice

/-- `cmap_region`, the fixed-offset rule R184; a claim assumes it only by this name (R193, U6). -/
abbrev Params.CmapRegion (p : Params) : Prop :=
  ∀ b : Byte, 0x20 ≤ b → b ≤ 0x5F → b ≠ 0x5B → b ≠ 0x5D → b ≠ 0x5F →
    p.glyph b = [Char.ofNat (b.toNat + 0x20)]

/-- The constraints R8 lists for the open parameters, all together. -/
abbrev Params.Admissible (p : Params) : Prop := p.TextsOk ∧ p.ErrTokenOk ∧ p.CmapOk

/-- The default table `CMAP0` of R191 over a choice of the eleven open high entries. -/
def cmap0 (hi : Byte → Str) : List (Byte × Str) :=
  [(0x07, ['\\'])] ++
  ((List.range 59).map fun i => (BitVec.ofNat 8 (0x20 + i), [Char.ofNat (0x40 + i)])) ++
  [(0x5B, [Char.ofNat 0x7B, ' ']), (0x5C, ['|']), (0x5D, [' ', Char.ofNat 0x7D]), (0x5E, ['~']), (0x5F, [])] ++
  highKeys.map fun k => (k, hi k)

/-- The test instance T0 of spec/95_test_vectors.md section 0, over a choice of the high entries and of `SNAP_RESET`:
the spec's own choice of the open parameters, made only so that whole strings can be written out. -/
def Params.t0 (hi : Byte → Str) (snap : Snapshot) : Params where
  sepHead := '#'
  sepTail := []
  msgNc := ['N', 'O', 'T', ' ', 'C', 'O', 'N', 'N', 'E', 'C', 'T', 'E', 'D']
  msgComm := ['C', 'O', 'M', 'M', ' ', 'E', 'R', 'R', 'O', 'R']
  msgMalf := ['M', 'A', 'L', 'F', 'O', 'R', 'M', 'E', 'D']
  errToken := ['E', 'R', 'R', 'O', 'R']
  glyphs := cmap0 hi
  snapReset := snap
  attrRowBit := #v[0, 1, 2, 3, 4, 5, 6, 7]

/-- T0 with the infinity glyph at every high key: the witness that the constraints can be met together. -/
def Params.t0Witness : Params := Params.t0 (fun _ => infinityGlyph) default

/-- Parameters together with the proof that they meet the constraints of R8. -/
structure Deployed where
  params : Params := Params.t0Witness
  admissible : params.Admissible := by decide
  deriving Inhabited

/-- The open parameters of the machine that stands there: nothing is known of them but the constraints of R8
(DESIGN CHOICE, log 2). -/
opaque Config.deployed : Deployed

/-- `dtr` after reset: the spec gives no value (U11; DESIGN CHOICE, log 3). -/
opaque Config.dtrReset : Bool

/-- `rts` after reset: the spec gives no value (U11; DESIGN CHOICE, log 3). -/
opaque Config.rtsReset : Bool

/-- `cmd_reg` after reset: the spec gives no value (U12; DESIGN CHOICE, log 3). -/
opaque Config.cmdRegReset : Byte

/-- `n_reg` after reset, within its range: the spec gives no value (U12; DESIGN CHOICE, log 3). -/
opaque Config.nRegReset : Fin 372

/-- `rx_len` after reset, within its range: the spec gives no value (U12; DESIGN CHOICE, log 3). -/
opaque Config.rxLenReset : Fin 372

/-- Does the k-th draw of `LinkConfigure` accept (R249, U15; log 7)? -/
opaque Config.configureAnswer : Nat → Bool

/-- The k-th draw of `LinkOpen` (R249, U15; log 7). -/
opaque Config.openAnswer : Nat → Bool

/-- The k-th draw of `LinkWrite` (R249, U15; log 7). -/
opaque Config.writeAnswer : Nat → WriteAnswer

/-- Does the k-th draw of `LinkReadExact` answer bytes rather than err (R249, U15; log 7)? -/
opaque Config.readAnswers : Nat → Bool

/-- Byte i of the k-th draw of `LinkReadExact` (R249, U15, U31; log 7). -/
opaque Config.readByte : Nat → Nat → Byte

/-- The k-th draw of `Sleep` (R237, R239; log 7). -/
opaque Config.sleepAnswer : Nat → SleepAnswer

/-- The k-th draw of `PWR_RESTORE_ON_INTR` (R8, R135, U13; log 7). -/
opaque Config.restoreOnInterrupt : Nat → Bool

/-- The k-th choice among several moves the block can make next, the grant order of the lock among them (R74, U14;
log 6). -/
opaque Config.pick : Nat → Nat

end Sys2Proof
end

