-- ==== Sys2Proof/Machine/State.lean ====
section
/-!
DEFINITION. The state of the block (spec/10_state.md), its ports, its refusals and its one fault, and the state after reset
(R43, R260, R261).
-/

namespace Sys2Proof.Machine

/-- The phases of the sequencer, the eight values of `seq` (R36). -/
inductive Phase where
  | idle
  | xOpen
  | xWrite
  | xRead
  | xClose
  | pActive
  | pHold
  | pRestore
  deriving DecidableEq, Repr

/-- To whom an EXCHANGE returns its result: a host caller, or the POLL that runs it (R124, R201). -/
inductive Caller where
  | host
  | poll
  deriving DecidableEq, Repr

/-- A caller held at "wait until link_busy = false", the one place where a caller waits (R124, R251). -/
inductive Waiter where
  /-- A request for an EXCHANGE (R74, R202). -/
  | exchange (owner : Caller) (c : Byte) (n : Nat)
  /-- A request for a CMDFRAME of its own while an exchange uses the frame buffer (R29; DESIGN CHOICE, log 10). -/
  | frame (c : Byte)
  deriving DecidableEq, Repr

/-- The small memories of the block: (address, byte) pairs, addresses strictly rising, no byte equal to 0, which is what
an unlisted address reads as (DESIGN CHOICE, log 4). -/
abbrev Memory := List Host.Cell

/-- Link parity: none is the only value the block uses (R7, R23). -/
inductive Parity where
  | none
  deriving DecidableEq, Repr

/-- Link flow control: none is the only value the block uses (R7, R23). -/
inductive Flow where
  | none
  deriving DecidableEq, Repr

/-- The arguments of `configure` (R245). -/
structure LinkConfig where
  baud : Nat
  dataBits : Nat
  stopBits : Nat
  parity : Parity
  flow : Flow
  readTimeoutMs : Nat
  writeTimeoutMs : Nat
  deriving DecidableEq, Repr

/-- One call on the SerialLink contract with the environment's answer; the six calls of R245 and no others. -/
inductive LinkCall where
  /-- `configure`, on the named port; the answer is accept (true) or reject. -/
  | configure (port : Str) (cfg : LinkConfig) (accepted : Bool)
  /-- `setControlLines`, no answer. -/
  | setControlLines (dtr rts : Bool)
  /-- `open`, answering true or false. -/
  | openPort (answer : Bool)
  /-- `write`, answering true, false or err. -/
  | write (bytes : Bytes) (answer : WriteAnswer)
  /-- `readExact`, answering exactly n bytes or err (none). -/
  | readExact (n timeoutMs : Nat) (answer : Option Bytes)
  /-- `close`, no answer. -/
  | closePort
  deriving DecidableEq, Repr

/-- The error kinds of R230 (code 0, no error, apart). -/
inductive ErrorKind where
  | configurationError
  | linkUnavailable
  | communicationError
  | malformed
  | parseWarning
  | interrupted
  deriving DecidableEq, Repr

/-- What the `info` of a report tells: the cause, and the number the pseudocode passes with it. The text itself is free
(R101, U29; log 9). -/
inductive ReportInfo where
  | noPortIdentifier
  | linkRejected
  | notDisplayString
  | ledSegmentTooShort
  | lineTooShort (i : Nat)
  | powerOnAborted (repetition : Nat)
  deriving DecidableEq, Repr

/-- The result an operation returns to its caller (R96). -/
inductive Result where
  /-- SETUP: `ok`. -/
  | setupOk
  /-- SETUP: `failure(ConfigurationError)`. -/
  | setupFailure
  /-- EXCHANGE: `some bytes` or `none`. -/
  | exchange (r : Option Bytes)
  /-- POWERON: `done`. -/
  | poweronDone
  /-- POWERON: `interrupted`. -/
  | poweronInterrupted
  /-- GETSNAPSHOT: a copy of the snapshot. -/
  | snapshot (v : Snapshot)
  /-- DECODE: `Ok(Str)` or `Err(e)`. -/
  | decode (d : DecodeResult)
  /-- CMAP: the glyph string. -/
  | glyph (g : Str)
  /-- POLL and PARSE: the operation has returned, with no value. -/
  | void
  deriving DecidableEq, Repr

/-- What goes out of the block's ports (D2): a Link call, a Sleep, a report, a push, a result. -/
inductive Event where
  | link (call : LinkCall)
  | sleep (ms : Nat) (answer : SleepAnswer)
  | report (kind : ErrorKind) (info : ReportInfo)
  | push (v : Snapshot)
  | result (r : Result)
  deriving DecidableEq, Repr

/-- Answers of the environment that are already decided, oldest first; where a list is empty the answer is a free value of
Config (R249; DESIGN CHOICE, log 7). -/
structure Inputs where
  /-- `LinkConfigure`: accept (true) or reject. -/
  configures : List Bool := []
  /-- `LinkOpen`. -/
  opens : List Bool := []
  /-- `LinkWrite`. -/
  writes : List WriteAnswer := []
  /-- `LinkReadExact`: bytes, or none for err. -/
  reads : List (Option Bytes) := []
  /-- `Sleep`. -/
  sleeps : List SleepAnswer := []
  /-- The draws of `PWR_RESTORE_ON_INTR`. -/
  restores : List Bool := []
  /-- Choices among several possible moves, the grant order among them (log 6). -/
  picks : List Nat := []
  deriving DecidableEq, Repr

/-- The state of the block. -/
structure State where
  /-- The open parameters and the character map: constants that no operation writes (R8, R39, R192). -/
  cfg : Params
  /-- `port_id` (R21). -/
  portId : Option Str
  /-- `configured` (R22). -/
  configured : Bool
  /-- `dtr`, the level last driven (R24). -/
  dtr : Bool
  /-- `rts`, the level last driven (R24). -/
  rts : Bool
  /-- `link_busy`, the link lock (R25). -/
  linkBusy : Bool
  /-- `port_open` (R26). -/
  portOpen : Bool
  /-- `cmd_reg` (R27). -/
  cmdReg : Byte
  /-- `n_reg` (R28). -/
  nReg : Nat
  /-- `txbuf`, the space TX (R29, R61). -/
  txbuf : Memory
  /-- `rxbuf`, the space RX (R30, R62). -/
  rxbuf : Memory
  /-- `rx_len` (R30). -/
  rxLen : Nat
  /-- `rx_present` (R30). -/
  rxPresent : Bool
  /-- `seq` (R36). -/
  seq : Phase
  /-- `pwr_rep` (R37). -/
  pwrRep : Nat
  /-- `poll_busy` (R38). -/
  pollBusy : Bool
  /-- `lastDecoded` (R31). -/
  lastDecoded : Str
  /-- `snapshot` (R32 to R35); its lines are the space LINE. -/
  snapshot : Snapshot
  /-- To whom the EXCHANGE in progress returns (R124, R201; log 5). -/
  xOwner : Caller
  /-- "X_CLOSE with result some" (true) or "none" (R124; log 5). -/
  xOk : Bool
  /-- The value `r` of the POLL in progress, from the end of its exchange to its commit step (R201; log 5). -/
  pollResult : Option (Option Bytes)
  /-- The callers held at the link lock, in order of arrival; the order of grants is open (R74; log 6). -/
  held : List Waiter
  /-- The model's own: what the host operation port presents at each coming step, one entry a step (log 8). -/
  hostIn : List (Option Request)
  /-- The model's own: answers already decided (log 7). -/
  env : Inputs
  /-- The model's own: how many answers have been drawn (log 7). -/
  draws : Nat
  /-- The model's own: what has gone out of the ports, oldest first (log 9). -/
  out : List Event
  deriving DecidableEq, Repr

/-- The one way a step can fault. -/
inductive Fault where
  /-- Raised by the read and close phases of EXCHANGE for an access to an address outside the space RX (R60). Safe: the
  block has no such access, and no state that meets `State.Inv` raises it (log 12). -/
  | noSuchCell (addr : Nat)
  deriving DecidableEq, Repr

/-- The situations the spec refuses, gives no meaning (R13, R278), and an instruction with no meaning yet. -/
inductive Refusal where
  /-- Raised by `exec` for an instruction with no meaning yet. Safe. -/
  | notModelled (mnemonic : String)
  /-- Raised by EXCHANGE with `n > RX_CAP` (R124, R278). Safe. -/
  | responseSizeExceedsBuffer (n : Nat)
  /-- Raised when an EXCHANGE is granted while a POWERON is in progress (R124, R268, R278). Safe. -/
  | exchangeOverlapsPoweron
  /-- Raised by POWERON while `link_busy` or `seq` is not `IDLE` (R131, R268, R278). Safe. -/
  | poweronOverlapsDriver
  /-- Raised by POWERON before a successful SETUP (R131, R278). Safe. -/
  | poweronBeforeSetup
  /-- Raised by SETUP while `link_busy`, `poll_busy` or `seq` is not `IDLE` (R121, R269, R278). Safe. -/
  | setupDuringDriver
  /-- Raised by POLL while `poll_busy` (R201, R269, R278). Safe. -/
  | pollReentered
  /-- Raised in the read phase when the link answers a number of bytes other than n (R249, R278). Safe. -/
  | linkAnswerOutsideContract
  deriving DecidableEq, Repr

/-- The state after reset (R43, R261): the values the spec gives; where it gives none, the free values of log 2 and log 3,
and the buffers with nothing listed (log 4). -/
def State.reset : State where
  cfg := Config.deployed.params
  portId := none
  configured := false
  dtr := Config.dtrReset
  rts := Config.rtsReset
  linkBusy := false
  portOpen := false
  cmdReg := Config.cmdRegReset
  nReg := Config.nRegReset.val
  txbuf := []
  rxbuf := []
  rxLen := Config.rxLenReset.val
  rxPresent := false
  seq := .idle
  pwrRep := 0
  pollBusy := false
  lastDecoded := placeholder
  snapshot := Config.deployed.params.snapReset
  xOwner := .host
  xOk := false
  pollResult := none
  held := []
  hostIn := []
  env := {}
  draws := 0
  out := []

end Sys2Proof.Machine
end

