-- ==== Sys2Proof/Machine/Flags.lean ====
section
/-!
DEFINITION. The boolean tests over the state. The block has no condition codes (spec/10_state.md R42); what other blocks call
flags are its busy bits and the phase register.
-/

namespace Sys2Proof.Machine

/-- The 3-bit encoding of `seq` (R36). -/
def Phase.code : Phase → BitVec 3
  | .idle => 0
  | .xOpen => 1
  | .xWrite => 2
  | .xRead => 3
  | .xClose => 4
  | .pActive => 5
  | .pHold => 6
  | .pRestore => 7

/-- A phase of EXCHANGE, `X_*` (R36). -/
def Phase.isExchange : Phase → Bool
  | .xOpen | .xWrite | .xRead | .xClose => true
  | .idle | .pActive | .pHold | .pRestore => false

/-- A phase of POWERON, `P_*` (R36). -/
def Phase.isPower : Phase → Bool
  | .pActive | .pHold | .pRestore => true
  | .idle | .xOpen | .xWrite | .xRead | .xClose => false

/-- Is the sequencer in `IDLE`? -/
def Phase.isIdle : Phase → Bool
  | .idle => true
  | .xOpen | .xWrite | .xRead | .xClose | .pActive | .pHold | .pRestore => false

/-- The guard of SETUP: link_busy or poll_busy or seq != IDLE (R121). -/
def State.setupBlocked (s : State) : Bool := s.linkBusy || s.pollBusy || !s.seq.isIdle

/-- The second guard of POWERON: link_busy or seq != IDLE (R131). -/
def State.poweronBlocked (s : State) : Bool := s.linkBusy || !s.seq.isIdle

/-- The numeric code of an error kind; 0 is no error (R230, D4). -/
def ErrorKind.code : ErrorKind → Nat
  | .configurationError => 1
  | .linkUnavailable => 2
  | .communicationError => 3
  | .malformed => 4
  | .parseWarning => 5
  | .interrupted => 6

/-- The error kind of a decoder error (R230, 90_conflicts.md C3). -/
def DecodeError.kind : DecodeError → ErrorKind
  | .notConnected => .linkUnavailable
  | .communicationError => .communicationError
  | .malformed => .malformed

end Sys2Proof.Machine
end

