-- ==== Sys2Proof/Machine/Ops.lean ====
section
/-!
DEFINITION. The named operations over memory, registers and ports that the meanings are made of (spec/00_scope.md R13,
spec/20_memory.md, spec/60_exceptions.md). The block has no trap entry: an operation that meets an error ends with its
result and perhaps a report (R240), which `State.report`, `State.returns` and `State.deliver` do for all of them.
-/

namespace Sys2Proof.Machine

/-! ## Memory -/

/-- The byte at an address; an unlisted address reads as 0 (log 4). -/
def Memory.read : Memory → Nat → Byte
  | [], _ => 0
  | (k, b) :: m, a => if k = a then b else Memory.read m a

/-- The entries that list `bs` from address `base` on, leaving out zeros. -/
def Memory.cellsFrom (base : Nat) : Bytes → Memory
  | [] => []
  | b :: bs => if b = 0 then Memory.cellsFrom (base + 1) bs else (base, b) :: Memory.cellsFrom (base + 1) bs

/-- Write consecutive bytes from address `base` on; every other address keeps its byte. -/
def Memory.writeBlock (m : Memory) (base : Nat) (bs : Bytes) : Memory :=
  m.filter (fun cell => cell.1 < base) ++ Memory.cellsFrom base bs ++
    m.filter (fun cell => base + bs.length ≤ cell.1)

/-- Write one byte (`MemWrite`, R13). -/
def Memory.write (m : Memory) (a : Nat) (b : Byte) : Memory := m.writeBlock a [b]

/-- Read `n` consecutive bytes from address `base` on. -/
def Memory.readBlock (m : Memory) (base n : Nat) : Bytes := (List.range n).map fun i => m.read (base + i)

/-- The canonical form of a memory of `cap` cells: addresses strictly rising and below `cap`, no listed byte equal to 0. -/
abbrev Memory.wf (cap : Nat) (m : Memory) : Prop :=
  m.Pairwise (fun x y => x.1 < y.1) ∧ ∀ cell ∈ m, cell.2 ≠ 0 ∧ cell.1 < cap

/-! ## Ports -/

/-- Send an event out. -/
def State.emit (s : State) (e : Event) : State := { s with out := s.out ++ [e] }

/-- `report <Kind>(info)`: one record on the report port, nothing else changes (R13, R101). -/
def State.report (s : State) (kind : ErrorKind) (info : ReportInfo) : State := s.emit (.report kind info)

/-- The operation returns a result to its host caller (R95). -/
def State.returns (s : State) (r : Result) : State := s.emit (.result r)

/-- A Link call and its answer (R245). -/
def State.linkCall (s : State) (c : LinkCall) : State := s.emit (.link c)

/-! ## The environment's answers (R249) -/

/-- One answer has been drawn: the counter advances and `env` is what is left. -/
def State.drawn (s : State) (env : Inputs) : State := { s with env := env, draws := s.draws + 1 }

/-- The answer of the next `LinkConfigure`. -/
def State.configureAnswer (s : State) : Bool := s.env.configures.headD (Config.configureAnswer s.draws)

/-- The state after that answer. -/
def State.afterConfigure (s : State) : State := s.drawn { s.env with configures := s.env.configures.tail }

/-- The answer of the next `LinkOpen`. -/
def State.openAnswer (s : State) : Bool := s.env.opens.headD (Config.openAnswer s.draws)

/-- The state after that answer. -/
def State.afterOpen (s : State) : State := s.drawn { s.env with opens := s.env.opens.tail }

/-- The answer of the next `LinkWrite`. -/
def State.writeAnswer (s : State) : WriteAnswer := s.env.writes.headD (Config.writeAnswer s.draws)

/-- The state after that answer. -/
def State.afterWrite (s : State) : State := s.drawn { s.env with writes := s.env.writes.tail }

/-- The free answer of the k-th `LinkReadExact` for n bytes: any n bytes, or err. -/
def freeRead (k n : Nat) : Option Bytes :=
  if Config.readAnswers k then some ((List.range n).map (Config.readByte k)) else none

/-- The answer of the next `LinkReadExact` for n bytes; for n = 0 it is the empty sequence at once (R128, D30). -/
def State.readAnswer (s : State) (n : Nat) : Option Bytes :=
  if n = 0 then some [] else s.env.reads.headD (freeRead s.draws n)

/-- The state after that answer; for n = 0 nothing is drawn. -/
def State.afterRead (s : State) (n : Nat) : State :=
  if n = 0 then s else s.drawn { s.env with reads := s.env.reads.tail }

/-- The answer of the next `Sleep`. -/
def State.sleepAnswer (s : State) : SleepAnswer := s.env.sleeps.headD (Config.sleepAnswer s.draws)

/-- The state after that answer. -/
def State.afterSleep (s : State) : State := s.drawn { s.env with sleeps := s.env.sleeps.tail }

/-- The draw of `PWR_RESTORE_ON_INTR` for this interruption. -/
def State.restoreDraw (s : State) : Bool := s.env.restores.headD (Config.restoreOnInterrupt s.draws)

/-- The state after that draw. -/
def State.afterRestoreDraw (s : State) : State := s.drawn { s.env with restores := s.env.restores.tail }

/-- The choice among several possible moves. -/
def State.pickDraw (s : State) : Nat := s.env.picks.headD (Config.pick s.draws)

/-- The state after that choice. -/
def State.afterPick (s : State) : State := s.drawn { s.env with picks := s.env.picks.tail }

/-! ## Registers -/

/-- `LinkSetLines(dtr, rts)`: one call, the pair changes as one (R24). -/
def State.setLines (s : State) (lines : Bool × Bool) : State :=
  { s with dtr := lines.1, rts := lines.2 }.linkCall (.setControlLines lines.1 lines.2)

/-- The frame build of CMDFRAME: the six writes to TX, in the order of R123. -/
def State.buildFrame (s : State) (c : Byte) : State :=
  { s with txbuf :=
      (((((s.txbuf.write 0 syncByte).write 1 syncByte).write 2 syncByte).write 3 lenByte).write 4 c).write 5 c }

/-- The six bytes the write step sends, `txbuf[0]` first (R64). -/
def State.txBytes (s : State) : Bytes := s.txbuf.readBlock 0 cmdLen

/-- `MemRead(RX, i, 1)`: defined when a response is present and i is below its length, else Malformed (R67). -/
def State.rxRead (s : State) (i : Nat) : Except DecodeError Byte :=
  if s.rxPresent then
    if i < s.rxLen then .ok (s.rxbuf.read i) else .error .malformed
  else .error .notConnected

/-- The value `Option Bytes` that the triple rx_present, rx_len, rxbuf stands for (R30). -/
def State.rxValue (s : State) : Option Bytes :=
  if s.rxPresent then some (s.rxbuf.readBlock 0 s.rxLen) else none

/-- An EXCHANGE returns its result to whoever asked for it: to a host caller on the result port, to POLL as its value `r`
(R124, R201). -/
def State.deliver (s : State) (owner : Caller) (r : Option Bytes) : State :=
  match owner with
  | .host => s.returns (.exchange r)
  | .poll => { s with pollResult := some r }

/-! ## The host operation port -/

/-- What the host operation port presents at this step, if anything (log 8). -/
def State.presented (s : State) : Option Request := s.hostIn.head?.join

/-- The state once this step's entry of the port is taken. -/
def State.popPort (s : State) : State := { s with hostIn := s.hostIn.tail }

/-- Put a request first at the host operation port. -/
def State.present (s : State) (r : Request) : State := { s with hostIn := some r :: s.hostIn }

end Sys2Proof.Machine
end

