-- ==== Sys2Proof/Machine/CharacterMap.lean ====
section
/-!
DEFINITION. CMAP (spec/42_character_map.md).
-/

namespace Sys2Proof.Machine

/-- `CMAP b`: the glyph string of one byte; writes no state, cannot fail (R180). -/
def execCmap (b : Byte) (s : State) : Host.Outcome State Fault Refusal :=
  .next (s.returns (.glyph (s.cfg.glyph b)))

end Sys2Proof.Machine
end

