-- ==== Sys2Proof/Machine/FrameDecoder.lean ====
section
/-!
DEFINITION. DECODE (spec/41_frame_decoder.md), and the frames that arrive on the wire: the table's row RESP_DISPLAY, and
frames that are invalid (spec/30_encoding.md R103).
-/

namespace Sys2Proof.Machine

/-- Step 3: the led segment (R154). -/
def ledSegment (raw : Bytes) : Str := bin8 (byteAt raw ledOff)

/-- Step 4: the text of row r, its 40 glyph strings in column order (R156). -/
def rowText (p : Params) (raw : Bytes) (r : Nat) : Str :=
  (List.range cols).flatMap fun c => p.glyph (byteAt raw (glyphOffset r c))

/-- Token c of the attribute segment (R158). -/
def attrToken (raw : Bytes) (c : Nat) : Str := dec (byteAt raw (attrOffset c))

/-- Step 5: the attribute segment (R158). -/
def attrSegment (raw : Bytes) : Str := join attrSep ((List.range attrN).map (attrToken raw))

/-- The ten fields: led, the eight rows, the attributes (R97). -/
def canonFields (p : Params) (raw : Bytes) : List Str :=
  ledSegment raw :: ((List.range rows).map (rowText p raw) ++ [attrSegment raw])

/-- Step 6: the canonical string (R97, R159). -/
def canonical (p : Params) (raw : Bytes) : Str := join p.sep (canonFields p raw)

/-- The three marker bytes (R152). -/
def markOk (raw : Bytes) : Bool :=
  byteAt raw 0 == markByte && byteAt raw 1 == markByte && byteAt raw 2 == markByte

/-- `DECODE(raw)`: the tests in the order of R160, then the canonical string (R150). -/
def decodeResponse (p : Params) : Option Bytes → DecodeResult
  | none => .err .notConnected
  | some raw =>
    if raw.length < 3 then .err .malformed
    else if !markOk raw then .err .communicationError
    else if raw.length < respSize then .err .malformed
    else .ok (canonical p raw)

/-- `DECODE raw` as a host operation: writes no state (R150, R161). -/
def execDecode (raw : Option Bytes) (s : State) : Host.Outcome State Fault Refusal :=
  .next (s.returns (.decode (decodeResponse s.cfg raw)))

/-- A frame on the wire that is neither `F-CMD` nor `F-RESP`: there is no illegal-instruction trap, and a response that is
invalid gets DECODE's answer, CommunicationError for its first three bytes, Malformed for its length (R103). A marked
frame that is longer than 371 bytes is decoded by its first 371, beyond which the block reads nothing (R128, R162;
DEDUCED, log 10). -/
def execInvalidFrame (bytes : Bytes) (s : State) : Host.Outcome State Fault Refusal :=
  .next (s.returns (.decode (decodeResponse s.cfg (some bytes))))

/-- `RESP_DISPLAY`: a display response frame, decoded (R93, R150; DEDUCED, log 10). -/
def execRespDisplay (raw : Bytes) (s : State) : Host.Outcome State Fault Refusal :=
  .next (s.returns (.decode (decodeResponse s.cfg (some raw))))

end Sys2Proof.Machine
end

