-- ==== Sys2Proof/Machine/ProtocolDriver.lean ====
section
/-!
DEFINITION. SETUP, CMDFRAME, EXCHANGE, QUERY_DISPLAY and POWERON, with the phases of EXCHANGE and POWERON
(spec/40_protocol_driver.md).
-/

namespace Sys2Proof.Machine

/-! ## SETUP -/

/-- The wired constants SETUP hands to `LinkConfigure` (R23). -/
def linkConfig : LinkConfig where
  baud := 115200
  dataBits := 8
  stopBits := 1
  parity := .none
  flow := .none
  readTimeoutMs := tReadMs
  writeTimeoutMs := tWriteMs

/-- SETUP fails: configured is cleared, one report, the failure returned; the lines are not touched (R121, R122a). -/
def setupFails (info : ReportInfo) (s : State) : State :=
  ({ s with configured := false }.report .configurationError info).returns .setupFailure

/-- SETUP with an identifier: `LinkConfigure` first, then the lines (R121, R122d). -/
def setupPort (port : Str) (s : State) : State :=
  let t := s.afterConfigure.linkCall (.configure port linkConfig s.configureAnswer)
  if s.configureAnswer then { t.setLines idleLines with configured := true }.returns .setupOk
  else setupFails .linkRejected t

/-- `SETUP pid` (R121). -/
def execSetup (pid : Option Str) (s : State) : Host.Outcome State Fault Refusal :=
  if s.setupBlocked then .refused .setupDuringDriver
  else
    match pid with
    | none => .next (setupFails .noPortIdentifier { s with portId := none })
    | some port => .next (setupPort port { s with portId := some port })

/-! ## CMDFRAME -/

/-- `CMDFRAME c` (R123). EXCHANGE performs it under the lock; asked for by itself, it waits for the lock likewise, so that
nothing changes the frame of an exchange between its construction and the write (R29; DESIGN CHOICE, log 10). POWERON neither
takes the lock nor uses the frame (R131), so while one is in progress the frame is built at once (DESIGN CHOICE, log 10). -/
def execCmdframe (c : Byte) (s : State) : Host.Outcome State Fault Refusal :=
  if s.linkBusy then .next { s with held := s.held ++ [.frame c] }
  else .next (s.buildFrame c)

/-! ## EXCHANGE -/

/-- The grant of R124, once link_busy is false: the lock is set, the operands are stored, the frame is built; without a
successful SETUP the exchange ends at once with `none` (R125), and `rxbuf` and `rx_len` keep what they held (DESIGN CHOICE,
log 17). -/
def grantExchange (owner : Caller) (c : Byte) (n : Nat) (s : State) : Host.Outcome State Fault Refusal :=
  if s.seq.isPower then .refused .exchangeOverlapsPoweron
  else
    let t := { s with linkBusy := true, cmdReg := c, nReg := n, rxPresent := false }.buildFrame c
    if s.configured then .next { t with seq := .xOpen, xOwner := owner, xOk := false }
    else .next ({ t with linkBusy := false }.deliver owner none)

/-- An EXCHANGE is requested: refused when too long, held while the lock is set, else granted (R124). -/
def requestExchange (owner : Caller) (c : Byte) (n : Nat) (s : State) : Host.Outcome State Fault Refusal :=
  if rxCap < n then .refused (.responseSizeExceedsBuffer n)
  else if s.linkBusy then .next { s with held := s.held ++ [.exchange owner c n] }
  else grantExchange owner c n s

/-- `EXCHANGE c, n`, its first step (R124). -/
def execExchange (c : Byte) (n : Nat) (s : State) : Host.Outcome State Fault Refusal :=
  requestExchange .host c n s

/-- `QUERY_DISPLAY` is `EXCHANGE 0x80, 371` (R106). -/
def execQueryDisplay (s : State) : Host.Outcome State Fault Refusal :=
  requestExchange .host cmdDisplay respSize s

/-- Phase `X_OPEN` (R126). A failed open leaves `rxbuf` and `rx_len` as they were (DESIGN CHOICE, log 17). -/
def phaseOpen (s : State) : Host.Outcome State Fault Refusal :=
  let t := s.afterOpen.linkCall (.openPort s.openAnswer)
  if s.openAnswer then .next { t with portOpen := true, seq := .xWrite }
  else .next ({ t with seq := .idle, linkBusy := false }.deliver s.xOwner none)

/-- Phase `X_WRITE` (R127). A failed write leaves `rxbuf` and `rx_len` as they were (DESIGN CHOICE, log 17). -/
def phaseWrite (s : State) : Host.Outcome State Fault Refusal :=
  let t := s.afterWrite.linkCall (.write s.txBytes s.writeAnswer)
  match s.writeAnswer with
  | .accepted => .next { t with seq := .xRead }
  | .rejected | .err => .next { t with seq := .xClose, xOk := false }

/-- Phase `X_READ` (R128). On err the bytes that did arrive are discarded, and `rxbuf` and `rx_len` keep what they held before,
where U12 leaves `rxbuf` any value and R30 calls both meaningless (DESIGN CHOICE, log 17). -/
def phaseRead (s : State) : Host.Outcome State Fault Refusal :=
  let t := (s.afterRead s.nReg).linkCall (.readExact s.nReg tReadMs (s.readAnswer s.nReg))
  match s.readAnswer s.nReg with
  | none => .next { t with seq := .xClose, xOk := false }
  | some bytes =>
    if bytes.length ≠ s.nReg then .refused .linkAnswerOutsideContract
    else if rxCap < s.nReg then .fault (.noSuchCell rxCap)
    else .next { t with rxbuf := s.rxbuf.writeBlock 0 bytes, rxLen := s.nReg, seq := .xClose, xOk := true }

/-- Phase `X_CLOSE` and the release (R129). -/
def phaseClose (s : State) : Host.Outcome State Fault Refusal :=
  let t := { s.linkCall .closePort with portOpen := false, seq := .idle, linkBusy := false }
  if s.xOk then
    if rxCap < s.rxLen then .fault (.noSuchCell rxCap)
    else
      let u := { t with rxPresent := true }
      .next (u.deliver s.xOwner u.rxValue)
  else .next (t.deliver s.xOwner none)

/-! ## POWERON -/

/-- `POWERON`, its first step (R131). -/
def execPoweron (s : State) : Host.Outcome State Fault Refusal :=
  if !s.configured then .refused .poweronBeforeSetup
  else if s.poweronBlocked then .refused .poweronOverlapsDriver
  else .next { s with pwrRep := 0, seq := .pActive }

/-- Phase `P_ACTIVE` (R132). -/
def phaseActive (s : State) : Host.Outcome State Fault Refusal :=
  .next { s.setLines activeLines with seq := .pHold }

/-- An interrupted hold (R135): the report, the lines restored or not as the draw says, the operation over. -/
def abortPoweron (s : State) : State :=
  let t := (s.report .interrupted (.powerOnAborted (s.pwrRep + 1))).afterRestoreDraw
  let u := if s.restoreDraw then t.setLines idleLines else t
  { u with seq := .idle }.returns .poweronInterrupted

/-- Phase `P_HOLD` (R133, R135). -/
def phaseHold (s : State) : Host.Outcome State Fault Refusal :=
  let t := s.afterSleep.emit (.sleep tHoldMs s.sleepAnswer)
  match s.sleepAnswer with
  | .elapsed => .next { t with seq := .pRestore }
  | .interrupted => .next (abortPoweron t)

/-- Phase `P_RESTORE` and the loop (R134). -/
def phaseRestore (s : State) : Host.Outcome State Fault Refusal :=
  let t := { s.setLines idleLines with pwrRep := s.pwrRep + 1 }
  if s.pwrRep + 1 < pwrReps then .next { t with seq := .pActive }
  else .next ({ t with seq := .idle }.returns .poweronDone)

/-- The step of the phase the sequencer is in; in `IDLE` there is none to take (R36). -/
def phaseStep (s : State) : Host.Outcome State Fault Refusal :=
  match s.seq with
  | .idle => .next s
  | .xOpen => phaseOpen s
  | .xWrite => phaseWrite s
  | .xRead => phaseRead s
  | .xClose => phaseClose s
  | .pActive => phaseActive s
  | .pHold => phaseHold s
  | .pRestore => phaseRestore s

end Sys2Proof.Machine
end

