-- ==== Sys2Proof/Machine/DisplayState.lean ====
section
/-!
DEFINITION. POLL with its commit step, PARSE, GETSNAPSHOT and the push (spec/43_display_state_machine.md).
-/

namespace Sys2Proof.Machine

/-! ## PARSE -/

/-- What PARSE decides on a string: silence, a warning, or a snapshot to commit. -/
inductive ParseOutcome where
  /-- Length at most 1 (R209). -/
  | silent
  /-- ParseWarning (R210, R211). -/
  | warning (info : ReportInfo)
  /-- Every check passed (R208). -/
  | commit (v : Snapshot)
  deriving DecidableEq, Repr

/-- The first of the fields 1 to 8 with fewer than 40 characters (R211). -/
def shortLine (f : List Str) : Option Nat :=
  [1, 2, 3, 4, 5, 6, 7, 8].find? fun i => (f.getD i []).length < cols

/-- The snapshot of ten or more fields that are long enough (R208, R211, R212). -/
def snapshotOfFields (f : List Str) : Snapshot where
  led := ledOfStr (f.getD 0 [])
  line := #v[lineOfStr (f.getD 1 []), lineOfStr (f.getD 2 []), lineOfStr (f.getD 3 []), lineOfStr (f.getD 4 []),
             lineOfStr (f.getD 5 []), lineOfStr (f.getD 6 []), lineOfStr (f.getD 7 []), lineOfStr (f.getD 8 [])]
  attr := split (f.getD 9 []) attrSep

/-- The checks on the fields of a split string, in the order of R208. -/
def parseFields (errToken : Str) (f : List Str) : ParseOutcome :=
  if f.getD 0 [] = errToken ∨ f.length < 10 then .warning .notDisplayString
  else if (f.getD 0 []).length < 8 then .warning .ledSegmentTooShort
  else
    match shortLine f with
    | some i => .warning (.lineTooShort i)
    | none => .commit (snapshotOfFields f)

/-- The checks of PARSE (R208). -/
def parseString (p : Params) (str : Str) : ParseOutcome :=
  if str.length ≤ 1 then .silent else parseFields p.errToken (split str p.sep)

/-- PARSE's effect: the snapshot is written whole, or not at all with at most a ParseWarning (R208, R213). -/
def State.parse (s : State) (str : Str) : State :=
  match parseString s.cfg str with
  | .silent => s
  | .warning info => s.report .parseWarning info
  | .commit v => { s with snapshot := v }

/-- `PARSE s` as a host operation: a single step with no phase of its own, that waits for nothing and is refused in no state
(R36, R208, R251, R278; DEDUCED, log 15). -/
def execParse (str : Str) (s : State) : Host.Outcome State Fault Refusal :=
  .next ((s.parse str).returns .void)

/-! ## GETSNAPSHOT -/

/-- `GETSNAPSHOT`: a copy of the snapshot, at any time, nothing written (R214). -/
def execGetsnapshot (s : State) : Host.Outcome State Fault Refusal :=
  .next (s.returns (.snapshot s.snapshot))

/-! ## POLL -/

/-- `POLL`, its first step: `poll_busy` is set and the display query is requested (R201, R202). -/
def execPoll (s : State) : Host.Outcome State Fault Refusal :=
  if s.pollBusy then .refused .pollReentered
  else requestExchange .poll cmdDisplay respSize { s with pollBusy := true }

/-- The error texts (R203). -/
def errorText (p : Params) : DecodeError → Str
  | .notConnected => p.msgNc
  | .communicationError => p.msgComm
  | .malformed => p.msgMalf

/-- The canonical string of a poll cycle (R201, R203). -/
def canonOf (p : Params) (r : Option Bytes) : Str :=
  match decodeResponse p r with
  | .ok str => str
  | .err e => errorText p e

/-- What a changed canonical string does: the store, then PARSE, then one push of the snapshot as it then stands
(R205, R206, R77). -/
def State.publish (s : State) (canon : Str) : State :=
  let t := { s with lastDecoded := canon }.parse canon
  t.emit (.push t.snapshot)

/-- The commit step of POLL, one indivisible step (R201, R204). -/
def State.commitPoll (s : State) (r : Option Bytes) : State :=
  let canon := canonOf s.cfg r
  let t := if canon = s.lastDecoded then s else s.publish canon
  { t with pollBusy := false, pollResult := none }.returns .void

end Sys2Proof.Machine
end

