-- ==== Sys2Proof/Machine/Sequencer.lean ====
section
/-!
DEFINITION. What the block does in a step in which no host operation is requested: one of the moves open to it
(spec/00_scope.md R6, R14; spec/20_memory.md R72, R74).
-/

namespace Sys2Proof.Machine

/-- A move of the block itself. -/
inductive Move where
  /-- The step of the phase `seq` names (R36). -/
  | phase
  /-- The commit step of the POLL in progress, taken in `IDLE` (R36, R201). -/
  | commit (r : Option Bytes)
  /-- The link lock is granted to the k-th of the callers held (R74). -/
  | grant (k : Nat)
  deriving DecidableEq, Repr

/-- The commit step, once POLL's exchange has returned. -/
def State.commitMoves (s : State) : List Move :=
  match s.pollResult with
  | none => []
  | some r => [.commit r]

/-- The grants of the link lock, once it is free (R74). -/
def State.grantMoves (s : State) : List Move :=
  if s.linkBusy then [] else (List.range s.held.length).map .grant

/-- The moves open to the block: in `IDLE` the commit step of the POLL whose exchange has returned, in any other phase the
step of that phase (R36), and, the lock being free, the grants. The order among them is not specified: a held caller may
go on before POLL's commit step, which then waits for the next `IDLE` (R74, R129, U14; DESIGN CHOICE, log 6, log 14). -/
def State.moves (s : State) : List Move :=
  (if s.seq.isIdle then s.commitMoves else [.phase]) ++ s.grantMoves

/-- A held caller goes on with the lock (R74). A CMDFRAME does so during a POWERON too, which leaves the lock free (DESIGN
CHOICE, log 10). -/
def grantWaiter (w : Waiter) (s : State) : Host.Outcome State Fault Refusal :=
  match w with
  | .exchange owner c n => grantExchange owner c n s
  | .frame c => .next (s.buildFrame c)

/-- One move. -/
def runMove (m : Move) (s : State) : Host.Outcome State Fault Refusal :=
  match m with
  | .phase => phaseStep s
  | .commit r => .next (s.commitPoll r)
  | .grant k =>
    match s.held[k]? with
    | none => .next s
    | some w => grantWaiter w { s with held := s.held.eraseIdx k }

/-- The block's own step: nothing to do and it waits (R261); one move open and it is taken; several, and an open choice
decides (R74, R239). -/
def advance (s : State) : Host.Outcome State Fault Refusal :=
  match s.moves with
  | [] => .next s
  | [m] => runMove m s
  | m :: m' :: ms => runMove ((m :: m' :: ms).getD (s.pickDraw % (ms.length + 2)) m) s.afterPick

end Sys2Proof.Machine
end

