-- ==== Sys2Proof/Machine/Dispatch.lean ====
section
/-!
DEFINITION. One arm per instruction.
-/

namespace Sys2Proof.Machine

def exec (i : Instr) (s : State) : Host.Outcome State Fault Refusal :=
  match i with
  | .cmdframe c => Sys2Proof.Machine.execCmdframe c s
  | .queryDisplay => Sys2Proof.Machine.execQueryDisplay s
  | .respDisplay raw => Sys2Proof.Machine.execRespDisplay raw s
  | .setup pid => Sys2Proof.Machine.execSetup pid s
  | .exchange c n => Sys2Proof.Machine.execExchange c n s
  | .poweron => Sys2Proof.Machine.execPoweron s
  | .poll => Sys2Proof.Machine.execPoll s
  | .getsnapshot => Sys2Proof.Machine.execGetsnapshot s
  | .decode raw => Sys2Proof.Machine.execDecode raw s
  | .parse str => Sys2Proof.Machine.execParse str s
  | .cmap b => Sys2Proof.Machine.execCmap b s

end Sys2Proof.Machine
end

