-- ==== Sys2Proof/Machine/Request.lean ====
section
/-!
DEFINITION. What a request at the host operation port does: the instruction it carries, or the answer to an invalid frame.
-/

namespace Sys2Proof.Machine

/-- A request is decoded and executed; all eight operation codes are assigned (R95), and a wire frame that is no instruction
of the table gets the answer of R103 (log 10). -/
def runRequest (r : Request) (s : State) : Host.Outcome State Fault Refusal :=
  match r with
  | .hostop op arg => exec (decodeHostOp op arg) s
  | .wire bytes =>
    match decodeWire bytes with
    | .ok i => exec i s
    | .error _ => execInvalidFrame bytes s

end Sys2Proof.Machine
end

