-- ==== Sys2Proof/Machine/Step.lean ====
section
/-!
DEFINITION. One step of the block, and where a request is placed so that the next step runs it.
-/

namespace Sys2Proof.Machine

/-- One step: the request the host operation port presents, if there is one, else the block's own move (R6, R14). -/
def step (s : State) : Host.Outcome State Fault Refusal :=
  match s.presented with
  | some r => runRequest r s.popPort
  | none => advance s.popPort

/-- `s` with the instruction of a table word first at the host operation port. -/
def State.withFetchWord (s : State) (nbits w : Nat) : State := s.present (requestOfTableWord nbits w)

end Sys2Proof.Machine
end

