-- ==== Sys2Proof/Safety.lean ====
section
/-!
DEFINITION. The terms claims are stated in: what went out of each port, the discipline of the Link calls, the invariant that
rules out the states no run reaches, and the weak fairness a claim about progress assumes.
-/

namespace Sys2Proof.Machine

/-- The decimal digits. -/
def digits : List Char := ['0', '1', '2', '3', '4', '5', '6', '7', '8', '9']

/-! ## What went out -/

/-- The Link calls among the events, in order. -/
def linkTrace (es : List Event) : List LinkCall :=
  es.filterMap fun
    | .link c => some c
    | .sleep _ _ | .report _ _ | .push _ | .result _ => none

/-- The levels that the `setControlLines` calls among Link calls drive, in order: one pair a call (R24). -/
def lineCalls (calls : List LinkCall) : List (Bool × Bool) :=
  calls.filterMap fun
    | .setControlLines dtr rts => some (dtr, rts)
    | .configure _ _ _ | .openPort _ | .write _ _ | .readExact _ _ _ | .closePort => none

/-- The values pushed, in order. -/
def pushes (es : List Event) : List Snapshot :=
  es.filterMap fun
    | .push v => some v
    | .link _ | .sleep _ _ | .report _ _ | .result _ => none

/-- The kinds of the reports, in order. -/
def reports (es : List Event) : List ErrorKind :=
  es.filterMap fun
    | .report kind _ => some kind
    | .link _ | .sleep _ _ | .push _ | .result _ => none

/-- The results returned to host callers, in order. -/
def results (es : List Event) : List Result :=
  es.filterMap fun
    | .result r => some r
    | .link _ | .sleep _ _ | .report _ _ | .push _ => none

/-! ## The discipline of the Link calls (R72, R130) -/

/-- Where the link stands between two calls of an exchange. -/
inductive LinkMode where
  /-- No port is open. -/
  | closed
  /-- The open has answered true. -/
  | opened
  /-- The write has been accepted. -/
  | written
  /-- Only the close is left. -/
  | ending
  deriving DecidableEq, Repr

/-- Where the link stands after one more call, or none where the call is out of order: the call sequences of R130 (b). -/
def LinkMode.after : LinkMode → LinkCall → Option LinkMode
  | .closed, .configure _ _ _ => some .closed
  | .closed, .setControlLines _ _ => some .closed
  | .closed, .openPort true => some .opened
  | .closed, .openPort false => some .closed
  | .opened, .write _ .accepted => some .written
  | .opened, .write _ .rejected => some .ending
  | .opened, .write _ .err => some .ending
  | .written, .readExact _ _ _ => some .ending
  | .ending, .closePort => some .closed
  | _, _ => none

/-- Where the link stands after a list of calls made from `mode`, if they are in order. -/
def LinkMode.run (mode : LinkMode) (calls : List LinkCall) : Option LinkMode :=
  calls.foldl (fun m c => m.bind fun m' => m'.after c) (some mode)

/-- Where the link stands in a phase of the sequencer. -/
def Phase.linkMode : Phase → LinkMode
  | .idle | .xOpen | .pActive | .pHold | .pRestore => .closed
  | .xWrite => .opened
  | .xRead => .written
  | .xClose => .ending

/-- Is the port open in this phase (R26)? -/
def Phase.portIsOpen : Phase → Bool
  | .xWrite | .xRead | .xClose => true
  | .idle | .xOpen | .pActive | .pHold | .pRestore => false

/-! ## The invariant -/

/-- Is the caller POLL? -/
def Caller.isPoll : Caller → Bool
  | .poll => true
  | .host => false

/-- Is a waiter POLL's? -/
def Waiter.isPoll : Waiter → Bool
  | .exchange owner _ _ => owner.isPoll
  | .frame _ => false

/-- Does POLL own the exchange in progress? -/
def State.pollOwnsExchange (s : State) : Bool := s.seq.isExchange && s.xOwner.isPoll

/-- In how many places a POLL in progress stands: in its exchange, before its commit step, or held at the lock. -/
def State.pollPlaces (s : State) : Nat :=
  s.pollOwnsExchange.toNat + s.pollResult.isSome.toNat + s.held.countP Waiter.isPoll

/-- The invariant of the block: what holds at reset and in every state a step leaves. -/
structure State.Inv (s : State) : Prop where
  /-- The lock is set exactly during an exchange (R25). -/
  lock : s.linkBusy = s.seq.isExchange
  /-- The port is open exactly from an open that answered true to its close (R26). -/
  port : s.portOpen = s.seq.portIsOpen
  /-- The driver leaves `IDLE` only when it is configured (R125, R131). -/
  ready : s.seq ≠ .idle → s.configured = true
  /-- The range of `n_reg` (R28). -/
  sizeInRange : s.nReg ≤ rxCap
  /-- The range of `rx_len` (R30). -/
  lengthInRange : s.rxLen ≤ rxCap
  /-- TX is in canonical form and has 6 cells (R60). -/
  txWf : Memory.wf cmdLen s.txbuf
  /-- RX is in canonical form and has 371 cells (R60). -/
  rxWf : Memory.wf rxCap s.rxbuf
  /-- The frame stands unchanged until the write step (R29). -/
  frameStands : s.seq = .xOpen ∨ s.seq = .xWrite → s.txBytes = frameBytes s.cmdReg
  /-- A response is present only outside an exchange, and then has the size asked for (R30). -/
  responseSize : s.rxPresent = true → s.seq.isExchange = false ∧ s.rxLen = s.nReg
  /-- A read that succeeded has stored the size asked for (R128). -/
  readStored : s.seq = .xClose → s.xOk = true → s.rxLen = s.nReg
  /-- The range of `pwr_rep` (R37). -/
  repInRange : s.pwrRep ≤ pwrReps
  /-- Fewer than three repetitions are complete while POWERON runs (R131). -/
  repLeft : s.seq.isPower = true → s.pwrRep < pwrReps
  /-- The lines are active during a hold (R133). -/
  linesActive : s.seq = .pHold ∨ s.seq = .pRestore → (s.dtr, s.rts) = activeLines
  /-- Every held EXCHANGE is in range (R124). -/
  heldInRange : ∀ owner c n, Waiter.exchange owner c n ∈ s.held → n ≤ rxCap
  /-- `poll_busy` is true exactly while a POLL stands somewhere, and then in one place (R38). -/
  pollOnce : s.pollPlaces = s.pollBusy.toNat
  /-- The Link calls so far are in order, and the link stands where the phase says (R72, R130). -/
  linkOrder : LinkMode.closed.run (linkTrace s.out) = some s.seq.linkMode

/-- Every frame written so far is a command frame (R91, R127). -/
def State.SendsFrames (s : State) : Prop :=
  ∀ bytes answer, LinkCall.write bytes answer ∈ linkTrace s.out → ∃ c, bytes = frameBytes c

/-! ## Weak fairness (R74, R276, U14, U27) -/

/-- An unending execution: the block steps and is refused nothing, and after each step the host may present more requests and
the environment may decide its answers anew. -/
def IsExecution (tr : Nat → State) : Prop :=
  ∀ k, ∃ (t : State) (requests : List (Option Request)) (env : Inputs),
    step (tr k) = .next t ∧ tr (k + 1) = { t with hostIn := t.hostIn ++ requests, env := env }

/-- The weak fairness that R74, U14 and R276 let a claim about progress assume of an execution; safety claims do without it.
Callers are not numbered (R250), so two that ask for the same are told apart by nothing. -/
structure WeaklyFair (tr : Nat → State) : Prop where
  /-- Every Link call and every hold ends: the block gets steps of its own, again and again (R276). -/
  ownSteps : ∀ k, ∃ j, k ≤ j ∧ (tr j).presented = none
  /-- A request that stays pending is eventually granted (R74, U14). -/
  granted : ∀ k w, w ∈ (tr k).held → ∃ j, k ≤ j ∧ (tr (j + 1)).held.count w < (tr j).held.count w
  /-- Every operation ends: a POLL whose exchange has returned eventually takes its commit step (R276). -/
  commits : ∀ k, (tr k).pollResult.isSome = true → ∃ j, k ≤ j ∧ (tr j).pollResult = none

end Sys2Proof.Machine
end

