-- ==== Sys2Proof/Certificates/Slice0/Obligations.lean ====
section
/-!
DEFINITION. The statements for the provers.
-/

open Sys2Proof Sys2Proof.Machine

/-! ## Encodings -/

/-- 30_encoding.md R91, R93, R96: decoding the request that carries a well-formed instruction gives it back; the one pair of
rows with the same words is CMDFRAME 0x80 and QUERY_DISPLAY, and those words read as QUERY_DISPLAY (log 10). -/
def Obligations.DecodeOfEncodeGivesBack : Prop :=
  ∀ i : Instr, i.WellFormed →
    (i ≠ .cmdframe 0x80 → decode (encode i) = .ok i) ∧ (i = .cmdframe 0x80 → decode (encode i) = .ok .queryDisplay)

/-- 30_encoding.md R91, R93: a wire frame that decodes is the encoding of what it decodes to, and that is well-formed. -/
def Obligations.WireFramesHaveOneMeaning : Prop :=
  ∀ (bytes : Bytes) (i : Instr), decode (.wire bytes) = .ok i → encode i = .wire bytes ∧ i.WellFormed

/-- R95: all eight codes are assigned, each with the operation R96 gives it. -/
def Obligations.AllHostCodesAssigned : Prop :=
  ∀ arg : Operands,
    decode (.hostop 0b000 arg) = .ok (.setup arg.pid) ∧ decode (.hostop 0b001 arg) = .ok (.exchange arg.c arg.n) ∧
    decode (.hostop 0b010 arg) = .ok .poweron ∧ decode (.hostop 0b011 arg) = .ok .poll ∧
    decode (.hostop 0b100 arg) = .ok .getsnapshot ∧ decode (.hostop 0b101 arg) = .ok (.decode arg.raw) ∧
    decode (.hostop 0b110 arg) = .ok (.parse arg.s) ∧ decode (.hostop 0b111 arg) = .ok (.cmap arg.b) ∧
    ∀ op : BitVec 3, ∃ i, decode (.hostop op arg) = .ok i

/-- R91: the frame is 55 55 55 01 c c, byte 0 in bits 47..40; exactly the frames of that shape are command frames. -/
def Obligations.CommandFramePattern : Prop :=
  (∀ c : Byte, encode (.cmdframe c) = .wire [0x55, 0x55, 0x55, 0x01, c, c]) ∧
  (∀ c : Byte, requestOfTableWord 48 (0x555555010000 + 256 * c.toNat + c.toNat) =
    .wire [0x55, 0x55, 0x55, 0x01, c, c]) ∧
  (∀ bytes : Bytes,
    ((∃ c, decode (.wire bytes) = .ok (.cmdframe c)) ∨ decode (.wire bytes) = .ok .queryDisplay) ↔
      ∃ c : Byte, bytes = [0x55, 0x55, 0x55, 0x01, c, c])

/-- R90, R93: a display response has 371 bytes (R90), and the match is on its first three (R93); no other byte matters to it.
That a marked wire frame of fewer or of more bytes is no RESP_DISPLAY, but an invalid frame, is the model's choice where the
table's row only says at least 371 and R93 only names the first 24 bits (log 10). -/
def Obligations.ResponseFramePattern : Prop :=
  ∀ bytes : Bytes,
    ((∃ raw, decode (.wire bytes) = .ok (.respDisplay raw)) ↔
      bytes.length = 371 ∧ bytes.take 3 = [0xAA, 0xAA, 0xAA]) ∧
    (bytes.length = 371 → bytes.take 3 = [0xAA, 0xAA, 0xAA] → decode (.wire bytes) = .ok (.respDisplay bytes))

/-- Words written out from the tables of 30_encoding.md read as their rows; words that break a field are none of them. That
55 55 55 01 80 80 reads as QUERY_DISPLAY, and the names of the five rejections, are the model's (log 10); so are the operands
of zeros of a table word (log 11). -/
def Obligations.SpecWordsDecode : Prop :=
  decodeTableWord 48 0x555555018080 = some .queryDisplay ∧
  decodeTableWord 48 0x555555012222 = some (.cmdframe 0x22) ∧
  decodeTableWord 8 0 = some (.setup none) ∧ decodeTableWord 8 3 = some .poll ∧ decodeTableWord 8 7 = some (.cmap 0) ∧
  decode (.wire [0x55, 0x55, 0x54, 0x01, 0x80, 0x80]) = .error .badSync ∧
  decode (.wire [0x55, 0x55, 0x55, 0x02, 0x80, 0x80]) = .error .badLengthByte ∧
  decode (.wire [0x55, 0x55, 0x55, 0x01, 0x80, 0x81]) = .error .trailerMismatch ∧
  decode (.wire [0xAA, 0xAA, 0xAA, 0x00]) = .error .shortResponse ∧
  decode (.wire []) = .error .unknownFrame

/-! ## Text -/

/-- R154: the led segment is always 8 characters, character k being '1' exactly when bit 7-k of the byte at offset 8 is
1. -/
def Obligations.LedSegmentRendersBits : Prop :=
  (∀ raw : Bytes, (ledSegment raw).length = 8 ∧
    ∀ k < 8, (ledSegment raw)[k]? = some (if (raw.getD 8 0).getLsbD (7 - k) then '1' else '0')) ∧
  bin8 0x00 = ['0', '0', '0', '0', '0', '0', '0', '0'] ∧ bin8 0x20 = ['0', '0', '1', '0', '0', '0', '0', '0'] ∧
  bin8 0x80 = ['1', '0', '0', '0', '0', '0', '0', '0'] ∧ bin8 0x01 = ['0', '0', '0', '0', '0', '0', '0', '1'] ∧
  bin8 0xA5 = ['1', '0', '1', '0', '0', '1', '0', '1'] ∧ bin8 0xFF = List.replicate 8 '1'

/-- R11, R158: `dec(b)` is the decimal numeral of the unsigned value: digits only, 1 to 3 of them, no leading zero, and
its value is the byte's. -/
def Obligations.DecimalNumeralOfByte : Prop :=
  ∀ b : Byte, (∀ c ∈ dec b, c ∈ digits) ∧ 1 ≤ (dec b).length ∧ (dec b).length ≤ 3 ∧
    ((dec b).head? = some '0' → dec b = ['0']) ∧
    (dec b).foldl (fun n c => 10 * n + (c.toNat - 48)) 0 = b.toNat

/-- R11: joining the pieces of a split gives the string back; R216 (W2): splitting a join finds the joints and nothing else
when no piece holds a character of the separator. -/
def Obligations.SplitAndJoinAgree : Prop :=
  (∀ s t : Str, t ≠ [] → join t (split s t) = s) ∧
  (∀ (t : Str) (fields : List Str), t ≠ [] → fields ≠ [] → (∀ f ∈ fields, ∀ c ∈ f, c ∉ t) →
    split (join t fields) t = fields)

/-! ## DECODE and RESP_DISPLAY -/

/-- R160: the four tests in order, the first that fails decides; otherwise the canonical string. -/
def Obligations.DecodeTestsInOrder : Prop :=
  ∀ (p : Params) (raw : Option Bytes),
    (decodeResponse p raw = .err .notConnected ↔ raw = none) ∧
    (decodeResponse p raw = .err .malformed ↔
      ∃ r, raw = some r ∧ (r.length < 3 ∨ (r.take 3 = [0xAA, 0xAA, 0xAA] ∧ r.length < 371))) ∧
    (decodeResponse p raw = .err .communicationError ↔
      ∃ r, raw = some r ∧ 3 ≤ r.length ∧ r.take 3 ≠ [0xAA, 0xAA, 0xAA]) ∧
    (∀ str, decodeResponse p raw = .ok str ↔
      ∃ r, raw = some r ∧ r.take 3 = [0xAA, 0xAA, 0xAA] ∧ 371 ≤ r.length ∧ str = canonical p r)

/-- R162: two responses of at least 371 bytes that agree on offsets 0..2 and 8..368 decode to the same; and whatever stands
beyond the marker, such a response decodes to a string: no checksum, no glyph, led or other byte is tested. -/
def Obligations.DecodeIgnoresOtherBytes : Prop :=
  (∀ (p : Params) (r r' : Bytes), 371 ≤ r.length → 371 ≤ r'.length →
    (∀ i, i < 3 ∨ (8 ≤ i ∧ i ≤ 368) → r[i]? = r'[i]?) →
    decodeResponse p (some r) = decodeResponse p (some r')) ∧
  ∀ (p : Params) (rest : Bytes), 368 ≤ rest.length →
    ∃ str, decodeResponse p (some ([0xAA, 0xAA, 0xAA] ++ rest)) = .ok str

/-- R97: the canonical string is the led segment, the eight rows of 40 glyph strings in column order and the 40 decimal
tokens joined by semicolons, with `SEP` at the nine joints. -/
def Obligations.CanonicalStringForm : Prop :=
  ∀ (p : Params) (r : Bytes), 371 ≤ r.length → r.take 3 = [0xAA, 0xAA, 0xAA] →
    ∀ row : Nat → Str, (∀ k < 8, row k = ((r.drop (9 + 40 * k)).take 40).flatMap p.glyph) →
    decodeResponse p (some r) = .ok (bin8 (r.getD 8 0) ++ p.sep ++ row 0 ++ p.sep ++ row 1 ++ p.sep ++ row 2 ++ p.sep ++
      row 3 ++ p.sep ++ row 4 ++ p.sep ++ row 5 ++ p.sep ++ row 6 ++ p.sep ++ row 7 ++ p.sep ++
      join [';'] (((r.drop 329).take 40).map dec))

/-- R98, R164: the lengths of a decoder-made canonical string and of its segments. -/
def Obligations.CanonicalStringLengths : Prop :=
  ∀ (p : Params) (r : Bytes), 371 ≤ r.length → (∀ b, (p.glyph b).length ≤ 2) →
    (∀ k < 8, (rowText p r k).length ≤ 80 ∧
      ((∀ c < 40, (p.glyph (r.getD (9 + 40 * k + c) 0)).length = 1) → (rowText p r k).length = 40)) ∧
    79 ≤ (attrSegment r).length ∧ (attrSegment r).length ≤ 159 ∧
    87 + 9 * p.sep.length ≤ (canonical p r).length ∧ (canonical p r).length ≤ 807 + 9 * p.sep.length

/-- R161: DECODE returns for every operand, reads no state but the constants, writes none. -/
def Obligations.DecodeCompletes : Prop :=
  ∀ (raw : Option Bytes) (s : State),
    exec (.decode raw) s = .next { s with out := s.out ++ [.result (.decode (decodeResponse s.cfg raw))] }

/-- R93, R150, R161, log 10: RESP_DISPLAY returns what DECODE returns for the frame and writes no state, in every phase of the
sequencer, as DECODE does (log 15); a well-formed frame decodes to its canonical string. -/
def Obligations.RespDisplayCompletes : Prop :=
  ∀ (raw : Bytes) (s : State),
    exec (.respDisplay raw) s = .next { s with out := s.out ++ [.result (.decode (decodeResponse s.cfg (some raw)))] } ∧
    ((Instr.respDisplay raw).WellFormed → decodeResponse s.cfg (some raw) = .ok (canonical s.cfg raw))

/-! ## CMAP -/

/-- R180, R185: CMAP is code 7; it returns the table cell of any byte, writes no state, cannot fail; a byte with no entry gives
one space, and the entries the spec states are as it states them. That it does so at once in every phase of the sequencer,
where R36 lists it among the single steps taken in `IDLE`, is the model's reading of R192 (DEDUCED, log 15). -/
def Obligations.CmapCompletes : Prop :=
  ∀ (b : Byte) (s : State),
    decode (.hostop 7 { b := b }) = .ok (.cmap b) ∧
    exec (.cmap b) s = .next { s with out := s.out ++ [.result (.glyph (s.cfg.glyph b))] } ∧
    (s.cfg.glyphs.lookup b = none → s.cfg.glyph b = [' ']) ∧
    (∀ g, s.cfg.glyphs.lookup b = some g → s.cfg.glyph b = g) ∧
    (s.cfg.EntriesOk →
      (s.cfg.glyph b).length ≤ 2 ∧ (b = 0x5F → s.cfg.glyph b = []) ∧ (b = 0x5B ∨ b = 0x5D → (s.cfg.glyph b).length = 2) ∧
      (b = 0x41 → s.cfg.glyph b = ['a']) ∧ (b = 0x21 → s.cfg.glyph b = ['A']) ∧
      (b = 0x07 ∨ b = 0x3C → s.cfg.glyph b = ['\\']))

/-- R191: the default table, whatever the eleven open high entries are. -/
def Obligations.DefaultTableEntries : Prop :=
  ∀ (hi : Byte → Str) (snap : Snapshot) (b : Byte),
    (0x20 ≤ b → b ≤ 0x5F → b ≠ 0x5B → b ≠ 0x5D → b ≠ 0x5F →
      (Params.t0 hi snap).glyph b = [Char.ofNat (b.toNat + 0x20)]) ∧
    (b ∈ highKeys → (Params.t0 hi snap).glyph b = hi b) ∧
    (b ∉ highKeys → b ≠ 0x07 → b < 0x20 ∨ 0x5F < b → (Params.t0 hi snap).glyph b = [' ']) ∧
    (b = 0x07 → (Params.t0 hi snap).glyph b = ['\\']) ∧
    (b = 0x5B → (Params.t0 hi snap).glyph b = [Char.ofNat 0x7B, ' ']) ∧
    (b = 0x5D → (Params.t0 hi snap).glyph b = [' ', Char.ofNat 0x7D]) ∧
    (b = 0x5F → (Params.t0 hi snap).glyph b = [])

/-! ## PARSE and GETSNAPSHOT -/

/-- R209: PARSE of a string of at most one character leaves the snapshot unchanged and sends no report; no canonical string of
a poll cycle is so short, under the constraints of R8 on the error texts. That PARSE does so in every phase of the sequencer,
where R36 lists it among the single steps taken in `IDLE`, is the model's reading of R251 and R278 (DEDUCED, log 15). -/
def Obligations.ParseIsSilentOnPlaceholder : Prop :=
  (∀ (str : Str) (s : State), str.length ≤ 1 →
    exec (.parse str) s = .next { s with out := s.out ++ [.result .void] }) ∧
  ∀ (p : Params) (r : Option Bytes), p.TextsOk → 2 ≤ (canonOf p r).length

/-- R210: a first field equal to the error token, or fewer than ten fields: a ParseWarning, the snapshot unchanged. That
PARSE does so in every phase of the sequencer is the model's reading (log 15). -/
def Obligations.ParseRejectsStructure : Prop :=
  ∀ (str : Str) (s : State), 2 ≤ str.length →
    (split str s.cfg.sep).head? = some s.cfg.errToken ∨ (split str s.cfg.sep).length < 10 →
    exec (.parse str) s =
      .next { s with out := s.out ++ [.report .parseWarning .notDisplayString, .result .void] }

/-- R210, R203: the three error texts split into one field each and are rejected by the field count, in every
phase of the sequencer (the model's reading, log 15). -/
def Obligations.ErrorTextsAreRejected : Prop :=
  ∀ (s : State) (str : Str), s.cfg.TextsOk → str ∈ [s.cfg.msgNc, s.cfg.msgComm, s.cfg.msgMalf] →
    split str s.cfg.sep = [str] ∧
    exec (.parse str) s =
      .next { s with out := s.out ++ [.report .parseWarning .notDisplayString, .result .void] }

/-- R211: a led field of fewer than 8 characters, or else a first line field of fewer than 40: a ParseWarning that names it,
the snapshot unchanged. That PARSE does so in every phase of the sequencer is the model's reading (log 15). -/
def Obligations.ParseRejectsShortFields : Prop :=
  ∀ (str : Str) (s : State) (f : List Str), 2 ≤ str.length → split str s.cfg.sep = f →
    10 ≤ f.length → f.getD 0 [] ≠ s.cfg.errToken →
    ((f.getD 0 []).length < 8 →
      exec (.parse str) s =
        .next { s with out := s.out ++ [.report .parseWarning .ledSegmentTooShort, .result .void] }) ∧
    (∀ i, 8 ≤ (f.getD 0 []).length → 1 ≤ i → i ≤ 8 → (f.getD i []).length < 40 →
      (∀ j, 1 ≤ j → j < i → 40 ≤ (f.getD j []).length) →
      exec (.parse str) s =
        .next { s with out := s.out ++ [.report .parseWarning (.lineTooShort i), .result .void] })

/-- R208, R211, R212: ten or more fields that are long enough are committed: led k is true exactly when character k of field 0
is '1', line i is the first 40 characters of field i+1, the markers are field 9 split at the semicolon; nothing else
changes and nothing is reported. That PARSE does so in every phase of the sequencer is the model's reading (log 15). -/
def Obligations.ParseCommitsFields : Prop :=
  ∀ (str : Str) (s : State) (f : List Str), 2 ≤ str.length → split str s.cfg.sep = f →
    10 ≤ f.length → f.getD 0 [] ≠ s.cfg.errToken → 8 ≤ (f.getD 0 []).length →
    (∀ i, 1 ≤ i → i ≤ 8 → 40 ≤ (f.getD i []).length) →
    ∃ v : Snapshot,
      exec (.parse str) s = .next { s with snapshot := v, out := s.out ++ [.result .void] } ∧
      (∀ k (h : k < 8), v.led[k] = decide ((f.getD 0 [])[k]? = some '1')) ∧
      (∀ i (h : i < 8), (v.line[i]).toList = (f.getD (i + 1) []).take 40) ∧
      v.attr = split (f.getD 9 []) [';']

/-- R216: the round trip, under its conditions W1 (one-character glyphs), W2 (the separator shares no character with a
field) and W3 (the led segment is not the error token). That PARSE does so in every phase of the sequencer is the
model's reading (log 15). -/
def Obligations.ParseOfDecodeRoundTrip : Prop :=
  ∀ (s : State) (r : Bytes), 371 ≤ r.length → r.take 3 = [0xAA, 0xAA, 0xAA] →
    (∀ i < 320, (s.cfg.glyph (r.getD (9 + i) 0)).length = 1) →
    (∀ c ∈ s.cfg.sep, c ≠ ';' ∧ c ∉ digits ∧ ∀ b, c ∉ s.cfg.glyph b) →
    bin8 (r.getD 8 0) ≠ s.cfg.errToken →
    ∃ (str : Str) (v : Snapshot),
      decodeResponse s.cfg (some r) = .ok str ∧
      exec (.parse str) s = .next { s with snapshot := v, out := s.out ++ [.result .void] } ∧
      (∀ k (h : k < 8), v.led[k] = (r.getD 8 0).getLsbD (7 - k)) ∧
      (∀ i (hi : i < 8) c (hc : c < 40), [v.line[i][c]] = s.cfg.glyph (r.getD (9 + 40 * i + c) 0)) ∧
      v.attr = ((r.drop 329).take 40).map dec

/-- R214: GETSNAPSHOT is code 4; it returns a copy of the snapshot in every state, makes no Link call and writes nothing; at
reset the snapshot is `SNAP_RESET`. -/
def Obligations.GetsnapshotCompletes : Prop :=
  (∀ arg : Operands, decode (.hostop 4 arg) = .ok .getsnapshot) ∧
  (∀ s : State, exec .getsnapshot s = .next { s with out := s.out ++ [.result (.snapshot s.snapshot)] }) ∧
  State.reset.snapshot = State.reset.cfg.snapReset

/-! ## SETUP and CMDFRAME -/

/-- R121: SETUP is code 0. It is refused during another driver operation. Otherwise, with no identifier it fails: the
identifier is cleared, configured is false, one report, no Link call, the lines kept. With an identifier, configure comes
first; accepted, the lines go idle and configured is true; rejected, configured is false, one report, and the lines are not
touched. -/
def Obligations.SetupOutcomes : Prop :=
  (∀ pid : Option Str, decode (.hostop 0 { pid := pid }) = .ok (.setup pid)) ∧
  (∀ (s : State) (pid : Option Str), s.linkBusy = true ∨ s.pollBusy = true ∨ s.seq ≠ .idle →
    exec (.setup pid) s = .refused .setupDuringDriver) ∧
  ∀ s : State, s.linkBusy = false → s.pollBusy = false → s.seq = .idle →
    exec (.setup none) s =
      .next { s with portId := none, configured := false,
                     out := s.out ++ [.report .configurationError .noPortIdentifier, .result .setupFailure] } ∧
    ∀ port : Str, exec (.setup (some port)) s =
      .next (if s.configureAnswer then
          { s with portId := some port, configured := true, dtr := true, rts := false,
                   env := { s.env with configures := s.env.configures.tail }, draws := s.draws + 1,
                   out := s.out ++ [.link (.configure port ⟨115200, 8, 1, .none, .none, 100, 100⟩ true),
                                    .link (.setControlLines true false), .result .setupOk] }
        else
          { s with portId := some port, configured := false,
                   env := { s.env with configures := s.env.configures.tail }, draws := s.draws + 1,
                   out := s.out ++ [.link (.configure port ⟨115200, 8, 1, .none, .none, 100, 100⟩ false),
                                    .report .configurationError .linkRejected, .result .setupFailure] })

/-- R123: CMDFRAME builds the six bytes for every command code; no other byte of TX and nothing else changes. That it runs by
itself only while no exchange holds the lock, and at once during a POWERON, is the model's choice (R29, log 10). -/
def Obligations.CmdframeBuildsFrame : Prop :=
  ∀ (c : Byte) (s : State), s.linkBusy = false →
    ∃ m : Memory, exec (.cmdframe c) s = .next { s with txbuf := m } ∧
      m.read 0 = 0x55 ∧ m.read 1 = 0x55 ∧ m.read 2 = 0x55 ∧ m.read 3 = 0x01 ∧ m.read 4 = c ∧ m.read 5 = c ∧
      ∀ a, 6 ≤ a → m.read a = s.txbuf.read a

/-! ## EXCHANGE and QUERY_DISPLAY -/

/-- R124: an EXCHANGE that finds the lock free on a configured link is granted: the lock is set, the operands stored, the
response gone, the frame built, the phase X_OPEN. -/
def Obligations.ExchangeIsGranted : Prop :=
  ∀ (c : Byte) (n : Nat) (s : State), n ≤ 371 → s.linkBusy = false → s.seq.isPower = false → s.configured = true →
    ∃ m : Memory,
      exec (.exchange c n) s =
        .next { s with linkBusy := true, cmdReg := c, nReg := n, rxPresent := false, txbuf := m, seq := .xOpen,
                       xOwner := .host, xOk := false } ∧
      m.readBlock 0 6 = [0x55, 0x55, 0x55, 0x01, c, c] ∧ ∀ a, 6 ≤ a → m.read a = s.txbuf.read a

/-- R106: QUERY_DISPLAY is EXCHANGE 0x80, 371, and is granted likewise. -/
def Obligations.QueryDisplayIsGranted : Prop :=
  (∀ s : State, exec .queryDisplay s = exec (.exchange 0x80 371) s) ∧
  ∀ s : State, s.linkBusy = false → s.seq.isPower = false → s.configured = true →
    ∃ m : Memory,
      exec .queryDisplay s =
        .next { s with linkBusy := true, cmdReg := 0x80, nReg := 371, rxPresent := false, txbuf := m, seq := .xOpen,
                       xOwner := .host, xOk := false } ∧
      m.readBlock 0 6 = [0x55, 0x55, 0x55, 0x01, 0x80, 0x80] ∧ ∀ a, 6 ≤ a → m.read a = s.txbuf.read a

/-- R125: before a successful SETUP an EXCHANGE makes no Link call at all, releases the lock and returns none. That it
leaves rxbuf and rx_len as they were is the model's choice (log 17). -/
def Obligations.ExchangeUnconfiguredReturnsNone : Prop :=
  ∀ (c : Byte) (n : Nat) (s : State), n ≤ 371 → s.linkBusy = false → s.seq.isPower = false → s.configured = false →
    ∃ m : Memory,
      exec (.exchange c n) s =
        .next { s with linkBusy := false, cmdReg := c, nReg := n, rxPresent := false, txbuf := m,
                       out := s.out ++ [.result (.exchange none)] } ∧
      m.readBlock 0 6 = [0x55, 0x55, 0x55, 0x01, c, c] ∧ ∀ a, 6 ≤ a → m.read a = s.txbuf.read a

/-- R74, R124: an EXCHANGE that finds the lock set is held and changes nothing else; so does a CMDFRAME asked for by itself,
which would otherwise change the frame of the exchange in progress (R29; that it waits is the model's choice, log 10). R251:
with the lock free no instruction leaves a caller waiting. -/
def Obligations.RequestsWaitForLock : Prop :=
  (∀ (c : Byte) (n : Nat) (s : State), n ≤ 371 → s.linkBusy = true →
    exec (.exchange c n) s = .next { s with held := s.held ++ [.exchange .host c n] }) ∧
  (∀ s : State, s.linkBusy = true →
    exec .queryDisplay s = .next { s with held := s.held ++ [.exchange .host 0x80 371] }) ∧
  (∀ (c : Byte) (s : State), s.linkBusy = true →
    exec (.cmdframe c) s = .next { s with held := s.held ++ [.frame c] }) ∧
  (∀ (i : Instr) (s t : State), s.linkBusy = false → exec i s = .next t → t.held = s.held)

/-- R74, R124: a held EXCHANGE, the display query of a POLL among them, is granted as if it were made then, and is held no
longer. R74, R129: from the release on, while the lock is free, the grant of every held caller is a move of the block; with
nothing presented and no other move open, a step takes it: the one held caller is granted, and of several the one that the
choice names, which is any of them. That a CMDFRAME can be held, and so granted, also during a POWERON, is the model's choice
(log 10); so is that a grant is a move of its own, taken in a step in which the port presents nothing (log 8), and that the
open order is a choice scripted in env.picks (log 6). -/
def Obligations.HeldRequestIsGranted : Prop :=
  (∀ (s : State) (k : Nat) (c : Byte) (n : Nat), s.linkBusy = false → n ≤ 371 →
    s.held[k]? = some (.exchange .host c n) →
    runMove (.grant k) s = exec (.exchange c n) { s with held := s.held.eraseIdx k }) ∧
  (∀ (s : State) (k : Nat), s.linkBusy = false → s.pollBusy = true →
    s.held[k]? = some (.exchange .poll 0x80 371) →
    runMove (.grant k) s = exec .poll { s with held := s.held.eraseIdx k, pollBusy := false }) ∧
  (∀ (s : State) (k : Nat) (c : Byte), s.linkBusy = false → s.held[k]? = some (.frame c) →
    runMove (.grant k) s = exec (.cmdframe c) { s with held := s.held.eraseIdx k }) ∧
  (∀ (s : State) (k : Nat), s.linkBusy = false → k < s.held.length → .grant k ∈ s.moves) ∧
  (∀ (s : State) (w : Waiter), s.presented = none → s.linkBusy = false → s.seq = .idle → s.pollResult = none →
    s.held = [w] →
    step s = runMove (.grant 0) { s with hostIn := s.hostIn.tail }) ∧
  (∀ (s : State) (k : Nat), s.presented = none → s.linkBusy = false → s.seq = .idle → s.pollResult = none →
    2 ≤ s.held.length → k < s.held.length → s.env.picks.head? = some k →
    step s = runMove (.grant k) { s with
      hostIn := s.hostIn.tail, env := { s.env with picks := s.env.picks.tail }, draws := s.draws + 1 })

/-- R126: phase X_OPEN. `env` and `draws` are the model's inputs (log 7). One open; true, the port is open and the write is
next; false, the exchange ends with none, no close is called, the lock is released, and rxbuf and rx_len stay as they were,
which is the model's choice (log 17). -/
def Obligations.OpenPhase : Prop :=
  ∀ s : State, s.seq = .xOpen →
    (s.openAnswer = true →
      phaseStep s = .next { s with
        portOpen := true, seq := .xWrite, env := { s.env with opens := s.env.opens.tail },
        draws := s.draws + 1, out := s.out ++ [.link (.openPort true)] }) ∧
    (s.openAnswer = false → s.xOwner = .host →
      phaseStep s = .next { s with
        seq := .idle, linkBusy := false, env := { s.env with opens := s.env.opens.tail },
        draws := s.draws + 1, out := s.out ++ [.link (.openPort false), .result (.exchange none)] }) ∧
    (s.openAnswer = false → s.xOwner = .poll →
      phaseStep s = .next { s with
        seq := .idle, linkBusy := false, pollResult := some none,
        env := { s.env with opens := s.env.opens.tail }, draws := s.draws + 1,
        out := s.out ++ [.link (.openPort false)] })

/-- R127: phase X_WRITE. One write of the six bytes of TX in order; accepted, the read is next; false or err, the read is
skipped and the close is next with result none, and rxbuf and rx_len stay as they were, which is the model's choice (log 17).
-/
def Obligations.WritePhase : Prop :=
  ∀ s : State, s.seq = .xWrite →
    ∃ bytes : Bytes, bytes = [s.txbuf.read 0, s.txbuf.read 1, s.txbuf.read 2, s.txbuf.read 3, s.txbuf.read 4, s.txbuf.read 5] ∧
    (s.writeAnswer = .accepted →
      phaseStep s = .next { s with
        seq := .xRead, env := { s.env with writes := s.env.writes.tail }, draws := s.draws + 1,
        out := s.out ++ [.link (.write bytes .accepted)] }) ∧
    (s.writeAnswer ≠ .accepted →
      phaseStep s = .next { s with
        seq := .xClose, xOk := false, env := { s.env with writes := s.env.writes.tail }, draws := s.draws + 1,
        out := s.out ++ [.link (.write bytes s.writeAnswer)] })

/-- R128: phase X_READ. One readExact of n_reg bytes; err, nothing is stored and the close is next with result none; exactly
n_reg bytes, they are stored in arrival order from rxbuf[0] and the rest of RX is as it was; with n_reg = 0 the answer is
the empty sequence and nothing is drawn. That err leaves rxbuf and rx_len as they were is the model's choice, where U12 and R30
leave them open (log 17). -/
def Obligations.ReadPhase : Prop :=
  ∀ s : State, s.seq = .xRead → s.nReg ≤ 371 →
    (s.nReg = 0 → s.readAnswer s.nReg = some [] ∧ s.afterRead s.nReg = s) ∧
    (s.readAnswer s.nReg = none →
      phaseStep s = .next { s with
        seq := .xClose, xOk := false, env := { s.env with reads := s.env.reads.tail }, draws := s.draws + 1,
        out := s.out ++ [.link (.readExact s.nReg 100 none)] }) ∧
    (∀ bytes, s.readAnswer s.nReg = some bytes → bytes.length = s.nReg →
      ∃ m : Memory,
        phaseStep s = .next { s.afterRead s.nReg with
          rxbuf := m, rxLen := s.nReg, seq := .xClose, xOk := true,
          out := s.out ++ [.link (.readExact s.nReg 100 (some bytes))] } ∧
        (∀ i < s.nReg, bytes[i]? = some (m.read i)) ∧ ∀ a, s.nReg ≤ a → m.read a = s.rxbuf.read a)

/-- R129: phase X_CLOSE. One close, then the release; the result is none, or the rx_len bytes of RX, which are then present;
it goes to the host caller, or to the POLL that asked. After a failure rxbuf and rx_len stay as they were, which is the
model's choice (log 17). -/
def Obligations.ClosePhase : Prop :=
  ∀ s : State, s.seq = .xClose → s.rxLen ≤ 371 →
    ∃ r : Option Bytes,
      (s.xOk = false → r = none) ∧ (s.xOk = true → r = some ((List.range s.rxLen).map s.rxbuf.read)) ∧
      (s.xOwner = .host →
        phaseStep s = .next { s with
          portOpen := false, seq := .idle, linkBusy := false, rxPresent := s.rxPresent || s.xOk,
          out := s.out ++ [.link .closePort, .result (.exchange r)] }) ∧
      (s.xOwner = .poll →
        phaseStep s = .next { s with
          portOpen := false, seq := .idle, linkBusy := false, rxPresent := s.rxPresent || s.xOk, pollResult := some r,
          out := s.out ++ [.link .closePort] })

/-- R124, R130: an EXCHANGE that meets no error runs to its end in five steps: open, write, readExact, close in that order,
the bytes read are its result and stand in RX, the lock is released, the display state is untouched. -/
def Obligations.ExchangeRunsToItsResult : Prop :=
  ∀ (s : State) (c : Byte) (n : Nat) (bytes : Bytes), n ≤ 371 → bytes.length = n →
    s.linkBusy = false → s.seq = .idle → s.configured = true → s.held = [] → s.pollResult = none →
    s.hostIn = [some (.hostop 1 { c := c, n := n })] →
    s.openAnswer = true → s.writeAnswer = .accepted → s.env.opens ≠ [] → s.env.writes ≠ [] →
    s.env.reads.head? = some (some bytes) →
    ∃ u : State, Sys2Proof.core.run 5 s = .next u ∧
      linkTrace u.out = linkTrace s.out ++
        [.openPort true, .write [0x55, 0x55, 0x55, 0x01, c, c] .accepted, .readExact n 100 (some bytes), .closePort] ∧
      results u.out = results s.out ++ [.exchange (some bytes)] ∧
      u.rxPresent = true ∧ u.rxLen = n ∧ (∀ i < n, bytes[i]? = some (u.rxbuf.read i)) ∧
      u.linkBusy = false ∧ u.portOpen = false ∧ u.seq = .idle ∧ u.cmdReg = c ∧ u.nReg = n ∧
      u.lastDecoded = s.lastDecoded ∧ u.snapshot = s.snapshot ∧ pushes u.out = pushes s.out

/-! ## POWERON -/

/-- R131: POWERON on a configured, idle driver starts the first repetition. -/
def Obligations.PoweronStarts : Prop :=
  ∀ s : State, s.configured = true → s.linkBusy = false → s.seq = .idle →
    exec .poweron s = .next { s with pwrRep := 0, seq := .pActive }

/-- R132, R133, R134: P_ACTIVE puts both lines in the state opposite to idle by one call; a hold that elapses changes nothing
but the phase; the restore puts the lines idle, counts the repetition, and starts the next or ends with done after the
third. -/
def Obligations.PoweronPhases : Prop :=
  (∀ s : State, s.seq = .pActive →
    phaseStep s = .next { s with
      dtr := false, rts := true, seq := .pHold, out := s.out ++ [.link (.setControlLines false true)] }) ∧
  (∀ s : State, s.seq = .pHold → s.sleepAnswer = .elapsed →
    phaseStep s = .next { s with
      seq := .pRestore, env := { s.env with sleeps := s.env.sleeps.tail }, draws := s.draws + 1,
      out := s.out ++ [.sleep 1000 .elapsed] }) ∧
  (∀ s : State, s.seq = .pRestore → s.pwrRep < 2 →
    phaseStep s = .next { s with
      dtr := true, rts := false, pwrRep := s.pwrRep + 1, seq := .pActive,
      out := s.out ++ [.link (.setControlLines true false)] }) ∧
  (∀ s : State, s.seq = .pRestore → 2 ≤ s.pwrRep →
    phaseStep s = .next { s with
      dtr := true, rts := false, pwrRep := s.pwrRep + 1, seq := .idle,
      out := s.out ++ [.link (.setControlLines true false), .result .poweronDone] })

/-- R135: an interrupted hold ends the operation with one report; the lines are restored or kept as the draw says; the
repetitions not begun are not performed. -/
def Obligations.InterruptedHold : Prop :=
  ∀ s : State, s.seq = .pHold → s.sleepAnswer = .interrupted →
    ∃ (d : Bool) (env : Inputs),
      env = { s.env with sleeps := s.env.sleeps.tail, restores := s.env.restores.tail } ∧
      (∀ x, s.env.restores.head? = some x → d = x) ∧
      (d = true → phaseStep s = .next { s with
        dtr := true, rts := false, seq := .idle, env := env, draws := s.draws + 2,
        out := s.out ++ [.sleep 1000 .interrupted, .report .interrupted (.powerOnAborted (s.pwrRep + 1)),
                         .link (.setControlLines true false), .result .poweronInterrupted] }) ∧
      (d = false → phaseStep s = .next { s with
        seq := .idle, env := env, draws := s.draws + 2,
        out := s.out ++ [.sleep 1000 .interrupted, .report .interrupted (.powerOnAborted (s.pwrRep + 1)),
                         .result .poweronInterrupted] })

/-- R131: an uninterrupted POWERON makes six setControlLines calls, ends with the lines idle, three repetitions counted and
done, and leaves the display state alone. -/
def Obligations.PoweronRunsThreeRepetitions : Prop :=
  ∀ s : State, s.configured = true → s.linkBusy = false → s.seq = .idle → s.held = [] → s.pollResult = none →
    s.hostIn = [some (.hostop 2 {})] → s.env.sleeps.take 3 = [.elapsed, .elapsed, .elapsed] →
    ∃ u : State, Sys2Proof.core.run 10 s = .next u ∧
      linkTrace u.out = linkTrace s.out ++
        [.setControlLines false true, .setControlLines true false, .setControlLines false true,
         .setControlLines true false, .setControlLines false true, .setControlLines true false] ∧
      results u.out = results s.out ++ [.poweronDone] ∧ reports u.out = reports s.out ∧
      u.pwrRep = 3 ∧ u.dtr = true ∧ u.rts = false ∧ u.seq = .idle ∧
      u.lastDecoded = s.lastDecoded ∧ u.snapshot = s.snapshot ∧ pushes u.out = pushes s.out

/-! ## POLL -/

/-- R201, R202: POLL sets poll_busy and requests EXCHANGE 0x80, 371: granted, or ended at once with none before a
successful SETUP, or held while the lock is set. That both happen in one step is the model's reading (log 14), and
that an exchange ended at once leaves rxbuf and rx_len as they were is its choice (log 17). -/
def Obligations.PollStarts : Prop :=
  ∀ s : State, s.pollBusy = false →
    (s.linkBusy = true →
      exec .poll s = .next { s with pollBusy := true, held := s.held ++ [.exchange .poll 0x80 371] }) ∧
    (s.linkBusy = false → s.seq.isPower = false →
      ∃ m : Memory,
        exec .poll s = .next (if s.configured then
            { s with pollBusy := true, linkBusy := true, cmdReg := 0x80, nReg := 371, rxPresent := false, txbuf := m,
                     seq := .xOpen, xOwner := .poll, xOk := false }
          else
            { s with pollBusy := true, linkBusy := false, cmdReg := 0x80, nReg := 371, rxPresent := false, txbuf := m,
                     pollResult := some none }) ∧
        m.readBlock 0 6 = [0x55, 0x55, 0x55, 0x01, 0x80, 0x80] ∧ ∀ a, 6 ≤ a → m.read a = s.txbuf.read a)

/-- R204: a canonical string equal to lastDecoded: no write, no parse, no push, no report; POLL returns. -/
def Obligations.CommitWithoutChange : Prop :=
  ∀ (s : State) (r : Option Bytes),
    (∀ str, decodeResponse s.cfg r = .ok str → str = s.lastDecoded) →
    (decodeResponse s.cfg r = .err .notConnected → s.cfg.msgNc = s.lastDecoded) →
    (decodeResponse s.cfg r = .err .communicationError → s.cfg.msgComm = s.lastDecoded) →
    (decodeResponse s.cfg r = .err .malformed → s.cfg.msgMalf = s.lastDecoded) →
    runMove (.commit r) s = .next { s with pollBusy := false, pollResult := none, out := s.out ++ [.result .void] }

/-- R205, R206, R77: a changed canonical string is stored first, then parsed as PARSE does, then the snapshot as it stands is
pushed once. -/
def Obligations.CommitWithChange : Prop :=
  ∀ (s : State) (r : Option Bytes) (canon : Str), canonOf s.cfg r = canon → canon ≠ s.lastDecoded →
    ∃ p t : State,
      exec (.parse canon) { s with lastDecoded := canon } = .next p ∧
      runMove (.commit r) s = .next t ∧
      t = { s with lastDecoded := canon, snapshot := p.snapshot, pollBusy := false, pollResult := none, out := t.out } ∧
      pushes t.out = pushes s.out ++ [p.snapshot] ∧ reports t.out = reports p.out ∧
      linkTrace t.out = linkTrace s.out ∧ results t.out = results s.out ++ [.void]

/-- R207 (a): two poll cycles with the same response push at most once, on the first. Between the two commit steps anything
may happen that leaves the constants and lastDecoded alone, as every step but a commit does. -/
def Obligations.SecondCommitPushesNothing : Prop :=
  ∀ (s t t' u : State) (r : Option Bytes), runMove (.commit r) s = .next t →
    t'.cfg = t.cfg → t'.lastDecoded = t.lastDecoded → runMove (.commit r) t' = .next u →
    (pushes t.out).length ≤ (pushes s.out).length + 1 ∧ pushes u.out = pushes t'.out ∧
    u.lastDecoded = t'.lastDecoded ∧ u.snapshot = t'.snapshot

/-- R207 (b), R99: under the constraints of R8 on the error texts every canonical string of a poll cycle differs from the
placeholder, so a poll cycle that finds the placeholder always stores and pushes. -/
def Obligations.FirstPollAlwaysPushes : Prop :=
  ∀ (s : State) (r : Option Bytes), s.cfg.TextsOk → s.lastDecoded = [' '] →
    ∃ t : State, runMove (.commit r) s = .next t ∧ t.lastDecoded ≠ [' '] ∧ pushes t.out = pushes s.out ++ [t.snapshot]

/-- R201, R207: a whole POLL with a display response of 371 bytes: one exchange of the display query, and at its end
lastDecoded is the decoded string, with one push exactly when it changed. That it takes six steps is the model's reading: the
set of poll_busy and the request for the query fall in one step, and the commit is a step of its own (DEDUCED, log 14). -/
def Obligations.PollRunsToItsCommit : Prop :=
  ∀ (s : State) (bytes : Bytes), bytes.length = 371 →
    s.linkBusy = false → s.seq = .idle → s.configured = true → s.pollBusy = false → s.held = [] → s.pollResult = none →
    s.hostIn = [some (.hostop 3 {})] →
    s.openAnswer = true → s.writeAnswer = .accepted → s.env.opens ≠ [] → s.env.writes ≠ [] →
    s.env.reads.head? = some (some bytes) →
    ∃ u : State, Sys2Proof.core.run 6 s = .next u ∧
      linkTrace u.out = linkTrace s.out ++
        [.openPort true, .write [0x55, 0x55, 0x55, 0x01, 0x80, 0x80] .accepted, .readExact 371 100 (some bytes),
         .closePort] ∧
      u.lastDecoded = canonOf s.cfg (some bytes) ∧ u.pollBusy = false ∧ u.linkBusy = false ∧ u.seq = .idle ∧
      pushes u.out = (if canonOf s.cfg (some bytes) = s.lastDecoded then pushes s.out else pushes s.out ++ [u.snapshot])

/-! ## The whole machine -/

/-- R278: every situation the spec refuses is refused, by its own name. -/
def Obligations.RefusedSituations : Prop :=
  (∀ (c : Byte) (n : Nat) (s : State), 371 < n → exec (.exchange c n) s = .refused (.responseSizeExceedsBuffer n)) ∧
  (∀ (c : Byte) (n : Nat) (s : State), n ≤ 371 → s.linkBusy = false → s.seq.isPower = true →
    exec (.exchange c n) s = .refused .exchangeOverlapsPoweron) ∧
  (∀ s : State, s.linkBusy = false → s.seq.isPower = true → exec .queryDisplay s = .refused .exchangeOverlapsPoweron ∧
    (s.pollBusy = false → exec .poll s = .refused .exchangeOverlapsPoweron)) ∧
  (∀ s : State, s.configured = true → s.linkBusy = true ∨ s.seq ≠ .idle →
    exec .poweron s = .refused .poweronOverlapsDriver) ∧
  (∀ s : State, s.configured = false → exec .poweron s = .refused .poweronBeforeSetup) ∧
  (∀ (pid : Option Str) (s : State), s.linkBusy = true ∨ s.pollBusy = true ∨ s.seq ≠ .idle →
    exec (.setup pid) s = .refused .setupDuringDriver) ∧
  (∀ s : State, s.pollBusy = true → exec .poll s = .refused .pollReentered) ∧
  (∀ (s : State) (bytes : Bytes), s.seq = .xRead → s.readAnswer s.nReg = some bytes → bytes.length ≠ s.nReg →
    phaseStep s = .refused .linkAnswerOutsideContract)

/-- A step runs the instruction the presented request decodes to, on the state without that request; with no request, the
block makes its own move, which during an exchange is its next phase (R36, R72). The moves open to it are exactly the step of
the phase outside `IDLE` (R124, R131), in `IDLE` the commit step of the POLL whose exchange has returned with whatever result
(R36, R201), and with the lock free the grants (R74, R129). With no caller held a step takes that phase, of EXCHANGE and of
POWERON alike, its interrupted hold included (R135), or that commit step; of several moves it takes the one the choice names,
which is any of them; with none open it waits. That the port presents one request or none at each step is the model's choice
(log 8), so is the choice among several moves, scripted in env.picks (log 6), and that a grant may come before the commit step
(log 14). A wire frame that is no instruction gets DECODE's answer (R103); that it is presented and answered as a step of its
own, in every phase, is the model's choice (log 10, log 15). -/
def Obligations.StepRunsDecodedInstruction : Prop :=
  (∀ (s : State) (r : Request) (i : Instr), s.hostIn.head? = some (some r) → decode r = .ok i →
    step s = exec i { s with hostIn := s.hostIn.tail }) ∧
  (∀ (s : State) (r : Request) (why : DecodeReject), s.hostIn.head? = some (some r) → decode r = .error why →
    ∃ bytes, r = .wire bytes ∧
      step s = .next { s with
        hostIn := s.hostIn.tail, out := s.out ++ [.result (.decode (decodeResponse s.cfg (some bytes)))] }) ∧
  (∀ s : State, s.hostIn.head? = none ∨ s.hostIn.head? = some none →
    step s = advance { s with hostIn := s.hostIn.tail }) ∧
  (∀ s : State, s.hostIn.head? = none ∨ s.hostIn.head? = some none → s.linkBusy = true → s.seq ≠ .idle →
    step s = phaseStep { s with hostIn := s.hostIn.tail }) ∧
  (∀ (s : State) (m : Move), m ∈ s.moves ↔
    (m = .phase ∧ s.seq ≠ .idle) ∨ (∃ r, m = .commit r ∧ s.pollResult = some r ∧ s.seq = .idle) ∨
    (∃ k, m = .grant k ∧ k < s.held.length ∧ s.linkBusy = false)) ∧
  (∀ s : State, runMove .phase s = phaseStep s) ∧
  (∀ s : State, s.presented = none → s.seq ≠ .idle → s.held = [] →
    step s = phaseStep { s with hostIn := s.hostIn.tail }) ∧
  (∀ (s : State) (r : Option Bytes), s.presented = none → s.seq = .idle → s.pollResult = some r → s.held = [] →
    step s = runMove (.commit r) { s with hostIn := s.hostIn.tail }) ∧
  (∀ (s : State) (m : Move) (k : Nat), s.presented = none → 2 ≤ s.moves.length → s.moves[k]? = some m →
    s.env.picks.head? = some k →
    step s = runMove m { s with
      hostIn := s.hostIn.tail, env := { s.env with picks := s.env.picks.tail }, draws := s.draws + 1 }) ∧
  (∀ s : State, s.presented = none → s.moves = [] → step s = .next { s with hostIn := s.hostIn.tail }) ∧
  (∀ (s : State) (nbits w : Nat) (i : Instr), decodeTableWord nbits w = some i →
    step (s.withFetchWord nbits w) = exec i s)

/-- R261: the reset values the spec gives, and after reset the block is idle and waits for the first host operation. That the
texts, the error token and the character map meet R8, D8, R188 and R193 holds of the one opaque admissible choice that
State.reset takes, which is the model's (log 2). -/
def Obligations.ResetState : Prop :=
  State.reset.lastDecoded = [' '] ∧ State.reset.configured = false ∧ State.reset.linkBusy = false ∧
  State.reset.portOpen = false ∧ State.reset.rxPresent = false ∧ State.reset.pollBusy = false ∧
  State.reset.seq = .idle ∧ State.reset.pwrRep = 0 ∧ State.reset.portId = none ∧
  State.reset.cfg.TextsOk ∧ State.reset.cfg.ErrTokenOk ∧ State.reset.cfg.EntriesOk ∧ step State.reset = .next State.reset

/-- The invariant holds at reset, and the constants meet all the constraints of R8 and R193. The ranges of n_reg and rx_len
rest on the reset values of log 3, the canonical empty buffers on those of log 4, and that the constants are one opaque
admissible choice, with U+221E for the infinity glyph two keys share, on log 2 and log 16: all are the model's choices. -/
def Obligations.ResetMeetsInvariant : Prop := State.reset.Inv ∧ State.reset.cfg.Admissible

/-- R22, R25, R26, R28 to R30, R36 to R38, R60, R72, R130: every step keeps the invariant. -/
def Obligations.StepKeepsInvariant : Prop :=
  ∀ s t : State, s.Inv → step s = .next t → t.Inv

/-- R72, R130 (b): along any run from a state that meets the invariant the Link calls stay in order: never two opens without a
close between them, a close if and only if the open answered true. -/
def Obligations.RunsKeepLinkOrder : Prop :=
  ∀ (k : Nat) (s t : State), s.Inv → Sys2Proof.core.run k s = .next t →
    LinkMode.closed.run (linkTrace t.out) = some t.seq.linkMode

/-- R91, R127: every write that ever goes to the link is a six-byte command frame. -/
def Obligations.OnlyCommandFramesAreWritten : Prop :=
  ∀ s t : State, s.Inv → s.SendsFrames → step s = .next t → t.SendsFrames

/-- R242: nothing is fatal: a step from a state that meets the invariant never faults. -/
def Obligations.StepNeverFaults : Prop :=
  ∀ (s : State) (f : Fault), s.Inv → step s ≠ .fault f

/-- R74, R129: every exchange ends: with no further request, the lock is released within four steps, unless the link answers
outside its contract. R74, R129, R207 (f), R276: under weak fairness, whose form is the model's (log 6), every exchange in
progress releases the lock and every POLL ends, whatever the host goes on asking for. -/
def Obligations.LockIsAlwaysReleased : Prop :=
  (∀ s : State, s.Inv → s.linkBusy = true → s.hostIn = [] →
    ∃ k ≤ 4, (∃ t : State, Sys2Proof.core.run k s = .next t ∧ t.linkBusy = false) ∨
      Sys2Proof.core.run k s = .refused .linkAnswerOutsideContract) ∧
  ∀ tr : Nat → State, IsExecution tr → (tr 0).Inv → WeaklyFair tr →
    (∀ k, (tr k).linkBusy = true → ∃ j, k ≤ j ∧ (tr j).linkBusy = false) ∧
    ∀ k, (tr k).pollBusy = true → ∃ j, k ≤ j ∧ (tr j).pollBusy = false

/-- R192: the character map, with the other constants, is written by nothing. -/
def Obligations.ConstantsAreNeverWritten : Prop :=
  ∀ s t : State, step s = .next t → t.cfg = s.cfg ∧ ∀ b, t.cfg.glyph b = s.cfg.glyph b

/-- R36, R205, R206, R215: a push is emitted exactly when lastDecoded changes, only by POLL's commit step, in `IDLE`, once,
and carries the snapshot as it then stands. -/
def Obligations.PushExactlyOnChange : Prop :=
  ∀ s t : State, step s = .next t →
    (t.lastDecoded = s.lastDecoded ∧ pushes t.out = pushes s.out) ∨
    (t.lastDecoded ≠ s.lastDecoded ∧ pushes t.out = pushes s.out ++ [t.snapshot] ∧
      s.presented = none ∧ s.pollResult.isSome = true ∧ s.seq = .idle)

/-- R20, R33, R270: only PARSE writes the snapshot: requested by a host, or inside a POLL that stores a new string, whose
commit step is taken in `IDLE` (R36; log 14). -/
def Obligations.SnapshotWrittenOnlyByParse : Prop :=
  ∀ s t : State, step s = .next t → t.snapshot ≠ s.snapshot →
    (∃ r str, s.presented = some r ∧ decode r = .ok (.parse str)) ∨
    (s.presented = none ∧ s.pollResult.isSome = true ∧ s.seq = .idle ∧ t.lastDecoded ≠ s.lastDecoded)

/-- R21, R22: only SETUP writes port_id and configured; port_id becomes its operand. -/
def Obligations.OnlySetupConfigures : Prop :=
  ∀ s t : State, step s = .next t → t.portId ≠ s.portId ∨ t.configured ≠ s.configured →
    ∃ r pid, s.presented = some r ∧ decode r = .ok (.setup pid) ∧ t.portId = pid

/-- R24: what a step sends is added to what has gone out, and either it makes no setControlLines call and leaves both lines
as they were, or it makes exactly one, and both lines then hold the levels of that call: the idle state by SETUP, the idle or
the active state by a phase of POWERON. That a SETUP is presented to the step, and a phase is not, is the model's port
(log 8). -/
def Obligations.LinesChangeByOneCall : Prop :=
  ∀ s t : State, step s = .next t →
    ∃ sent : List Event, t.out = s.out ++ sent ∧
      ((lineCalls (linkTrace sent) = [] ∧ (t.dtr, t.rts) = (s.dtr, s.rts)) ∨
       (lineCalls (linkTrace sent) = [(t.dtr, t.rts)] ∧
         (((t.dtr, t.rts) = (true, false) ∧ ∃ r pid, s.presented = some r ∧ decode r = .ok (.setup pid)) ∨
          (((t.dtr, t.rts) = (true, false) ∨ (t.dtr, t.rts) = (false, true)) ∧
            s.presented = none ∧ s.seq.isPower = true))))
end

