-- ==== Sys2Proof/Laws/State.lean ====
section
/-!
SUPPORT. What each named update of the state does to each field, once, so that no later proof unfolds a record update.
-/

namespace Sys2Proof.Machine

variable (s : State)


/-! ### emit -/

@[simp] theorem State.emit_cfg (e : Event) : (s.emit e).cfg = s.cfg := rfl
@[simp] theorem State.emit_portId (e : Event) : (s.emit e).portId = s.portId := rfl
@[simp] theorem State.emit_configured (e : Event) : (s.emit e).configured = s.configured := rfl
@[simp] theorem State.emit_dtr (e : Event) : (s.emit e).dtr = s.dtr := rfl
@[simp] theorem State.emit_rts (e : Event) : (s.emit e).rts = s.rts := rfl
@[simp] theorem State.emit_linkBusy (e : Event) : (s.emit e).linkBusy = s.linkBusy := rfl
@[simp] theorem State.emit_portOpen (e : Event) : (s.emit e).portOpen = s.portOpen := rfl
@[simp] theorem State.emit_cmdReg (e : Event) : (s.emit e).cmdReg = s.cmdReg := rfl
@[simp] theorem State.emit_nReg (e : Event) : (s.emit e).nReg = s.nReg := rfl
@[simp] theorem State.emit_txbuf (e : Event) : (s.emit e).txbuf = s.txbuf := rfl
@[simp] theorem State.emit_rxbuf (e : Event) : (s.emit e).rxbuf = s.rxbuf := rfl
@[simp] theorem State.emit_rxLen (e : Event) : (s.emit e).rxLen = s.rxLen := rfl
@[simp] theorem State.emit_rxPresent (e : Event) : (s.emit e).rxPresent = s.rxPresent := rfl
@[simp] theorem State.emit_seq (e : Event) : (s.emit e).seq = s.seq := rfl
@[simp] theorem State.emit_pwrRep (e : Event) : (s.emit e).pwrRep = s.pwrRep := rfl
@[simp] theorem State.emit_pollBusy (e : Event) : (s.emit e).pollBusy = s.pollBusy := rfl
@[simp] theorem State.emit_lastDecoded (e : Event) : (s.emit e).lastDecoded = s.lastDecoded := rfl
@[simp] theorem State.emit_snapshot (e : Event) : (s.emit e).snapshot = s.snapshot := rfl
@[simp] theorem State.emit_xOwner (e : Event) : (s.emit e).xOwner = s.xOwner := rfl
@[simp] theorem State.emit_xOk (e : Event) : (s.emit e).xOk = s.xOk := rfl
@[simp] theorem State.emit_pollResult (e : Event) : (s.emit e).pollResult = s.pollResult := rfl
@[simp] theorem State.emit_held (e : Event) : (s.emit e).held = s.held := rfl
@[simp] theorem State.emit_hostIn (e : Event) : (s.emit e).hostIn = s.hostIn := rfl
@[simp] theorem State.emit_env (e : Event) : (s.emit e).env = s.env := rfl
@[simp] theorem State.emit_draws (e : Event) : (s.emit e).draws = s.draws := rfl
@[simp] theorem State.emit_out (e : Event) : (s.emit e).out = s.out ++ [e] := rfl

/-! ### The sends that are `emit` -/

@[simp] theorem State.report_eq_emit (k : ErrorKind) (i : ReportInfo) : s.report k i = s.emit (.report k i) := rfl
@[simp] theorem State.returns_eq_emit (r : Result) : s.returns r = s.emit (.result r) := rfl
@[simp] theorem State.linkCall_eq_emit (c : LinkCall) : s.linkCall c = s.emit (.link c) := rfl

/-! ### drawn -/

@[simp] theorem State.drawn_cfg (env : Inputs) : (s.drawn env).cfg = s.cfg := rfl
@[simp] theorem State.drawn_portId (env : Inputs) : (s.drawn env).portId = s.portId := rfl
@[simp] theorem State.drawn_configured (env : Inputs) : (s.drawn env).configured = s.configured := rfl
@[simp] theorem State.drawn_dtr (env : Inputs) : (s.drawn env).dtr = s.dtr := rfl
@[simp] theorem State.drawn_rts (env : Inputs) : (s.drawn env).rts = s.rts := rfl
@[simp] theorem State.drawn_linkBusy (env : Inputs) : (s.drawn env).linkBusy = s.linkBusy := rfl
@[simp] theorem State.drawn_portOpen (env : Inputs) : (s.drawn env).portOpen = s.portOpen := rfl
@[simp] theorem State.drawn_cmdReg (env : Inputs) : (s.drawn env).cmdReg = s.cmdReg := rfl
@[simp] theorem State.drawn_nReg (env : Inputs) : (s.drawn env).nReg = s.nReg := rfl
@[simp] theorem State.drawn_txbuf (env : Inputs) : (s.drawn env).txbuf = s.txbuf := rfl
@[simp] theorem State.drawn_rxbuf (env : Inputs) : (s.drawn env).rxbuf = s.rxbuf := rfl
@[simp] theorem State.drawn_rxLen (env : Inputs) : (s.drawn env).rxLen = s.rxLen := rfl
@[simp] theorem State.drawn_rxPresent (env : Inputs) : (s.drawn env).rxPresent = s.rxPresent := rfl
@[simp] theorem State.drawn_seq (env : Inputs) : (s.drawn env).seq = s.seq := rfl
@[simp] theorem State.drawn_pwrRep (env : Inputs) : (s.drawn env).pwrRep = s.pwrRep := rfl
@[simp] theorem State.drawn_pollBusy (env : Inputs) : (s.drawn env).pollBusy = s.pollBusy := rfl
@[simp] theorem State.drawn_lastDecoded (env : Inputs) : (s.drawn env).lastDecoded = s.lastDecoded := rfl
@[simp] theorem State.drawn_snapshot (env : Inputs) : (s.drawn env).snapshot = s.snapshot := rfl
@[simp] theorem State.drawn_xOwner (env : Inputs) : (s.drawn env).xOwner = s.xOwner := rfl
@[simp] theorem State.drawn_xOk (env : Inputs) : (s.drawn env).xOk = s.xOk := rfl
@[simp] theorem State.drawn_pollResult (env : Inputs) : (s.drawn env).pollResult = s.pollResult := rfl
@[simp] theorem State.drawn_held (env : Inputs) : (s.drawn env).held = s.held := rfl
@[simp] theorem State.drawn_hostIn (env : Inputs) : (s.drawn env).hostIn = s.hostIn := rfl
@[simp] theorem State.drawn_env (env : Inputs) : (s.drawn env).env = env := rfl
@[simp] theorem State.drawn_draws (env : Inputs) : (s.drawn env).draws = s.draws + 1 := rfl
@[simp] theorem State.drawn_out (env : Inputs) : (s.drawn env).out = s.out := rfl

/-! ### The draws that are `drawn` -/

theorem State.afterConfigure_eq_drawn :
    s.afterConfigure = s.drawn { s.env with configures := s.env.configures.tail } := rfl
theorem State.afterOpen_eq_drawn : s.afterOpen = s.drawn { s.env with opens := s.env.opens.tail } := rfl
theorem State.afterWrite_eq_drawn : s.afterWrite = s.drawn { s.env with writes := s.env.writes.tail } := rfl
theorem State.afterSleep_eq_drawn : s.afterSleep = s.drawn { s.env with sleeps := s.env.sleeps.tail } := rfl
theorem State.afterRestoreDraw_eq_drawn :
    s.afterRestoreDraw = s.drawn { s.env with restores := s.env.restores.tail } := rfl
theorem State.afterPick_eq_drawn : s.afterPick = s.drawn { s.env with picks := s.env.picks.tail } := rfl

/-! ### afterRead -/

@[simp] theorem State.afterRead_cfg (n : Nat) : (s.afterRead n).cfg = s.cfg := by unfold State.afterRead; split <;> rfl
@[simp] theorem State.afterRead_portId (n : Nat) : (s.afterRead n).portId = s.portId := by unfold State.afterRead; split <;> rfl
@[simp] theorem State.afterRead_configured (n : Nat) : (s.afterRead n).configured = s.configured := by unfold State.afterRead; split <;> rfl
@[simp] theorem State.afterRead_dtr (n : Nat) : (s.afterRead n).dtr = s.dtr := by unfold State.afterRead; split <;> rfl
@[simp] theorem State.afterRead_rts (n : Nat) : (s.afterRead n).rts = s.rts := by unfold State.afterRead; split <;> rfl
@[simp] theorem State.afterRead_linkBusy (n : Nat) : (s.afterRead n).linkBusy = s.linkBusy := by unfold State.afterRead; split <;> rfl
@[simp] theorem State.afterRead_portOpen (n : Nat) : (s.afterRead n).portOpen = s.portOpen := by unfold State.afterRead; split <;> rfl
@[simp] theorem State.afterRead_cmdReg (n : Nat) : (s.afterRead n).cmdReg = s.cmdReg := by unfold State.afterRead; split <;> rfl
@[simp] theorem State.afterRead_nReg (n : Nat) : (s.afterRead n).nReg = s.nReg := by unfold State.afterRead; split <;> rfl
@[simp] theorem State.afterRead_txbuf (n : Nat) : (s.afterRead n).txbuf = s.txbuf := by unfold State.afterRead; split <;> rfl
@[simp] theorem State.afterRead_rxbuf (n : Nat) : (s.afterRead n).rxbuf = s.rxbuf := by unfold State.afterRead; split <;> rfl
@[simp] theorem State.afterRead_rxLen (n : Nat) : (s.afterRead n).rxLen = s.rxLen := by unfold State.afterRead; split <;> rfl
@[simp] theorem State.afterRead_rxPresent (n : Nat) : (s.afterRead n).rxPresent = s.rxPresent := by unfold State.afterRead; split <;> rfl
@[simp] theorem State.afterRead_seq (n : Nat) : (s.afterRead n).seq = s.seq := by unfold State.afterRead; split <;> rfl
@[simp] theorem State.afterRead_pwrRep (n : Nat) : (s.afterRead n).pwrRep = s.pwrRep := by unfold State.afterRead; split <;> rfl
@[simp] theorem State.afterRead_pollBusy (n : Nat) : (s.afterRead n).pollBusy = s.pollBusy := by unfold State.afterRead; split <;> rfl
@[simp] theorem State.afterRead_lastDecoded (n : Nat) : (s.afterRead n).lastDecoded = s.lastDecoded := by unfold State.afterRead; split <;> rfl
@[simp] theorem State.afterRead_snapshot (n : Nat) : (s.afterRead n).snapshot = s.snapshot := by unfold State.afterRead; split <;> rfl
@[simp] theorem State.afterRead_xOwner (n : Nat) : (s.afterRead n).xOwner = s.xOwner := by unfold State.afterRead; split <;> rfl
@[simp] theorem State.afterRead_xOk (n : Nat) : (s.afterRead n).xOk = s.xOk := by unfold State.afterRead; split <;> rfl
@[simp] theorem State.afterRead_pollResult (n : Nat) : (s.afterRead n).pollResult = s.pollResult := by unfold State.afterRead; split <;> rfl
@[simp] theorem State.afterRead_held (n : Nat) : (s.afterRead n).held = s.held := by unfold State.afterRead; split <;> rfl
@[simp] theorem State.afterRead_hostIn (n : Nat) : (s.afterRead n).hostIn = s.hostIn := by unfold State.afterRead; split <;> rfl
@[simp] theorem State.afterRead_out (n : Nat) : (s.afterRead n).out = s.out := by unfold State.afterRead; split <;> rfl

/-! ### setLines -/

@[simp] theorem State.setLines_cfg (l : Bool × Bool) : (s.setLines l).cfg = s.cfg := rfl
@[simp] theorem State.setLines_portId (l : Bool × Bool) : (s.setLines l).portId = s.portId := rfl
@[simp] theorem State.setLines_configured (l : Bool × Bool) : (s.setLines l).configured = s.configured := rfl
@[simp] theorem State.setLines_dtr (l : Bool × Bool) : (s.setLines l).dtr = l.1 := rfl
@[simp] theorem State.setLines_rts (l : Bool × Bool) : (s.setLines l).rts = l.2 := rfl
@[simp] theorem State.setLines_linkBusy (l : Bool × Bool) : (s.setLines l).linkBusy = s.linkBusy := rfl
@[simp] theorem State.setLines_portOpen (l : Bool × Bool) : (s.setLines l).portOpen = s.portOpen := rfl
@[simp] theorem State.setLines_cmdReg (l : Bool × Bool) : (s.setLines l).cmdReg = s.cmdReg := rfl
@[simp] theorem State.setLines_nReg (l : Bool × Bool) : (s.setLines l).nReg = s.nReg := rfl
@[simp] theorem State.setLines_txbuf (l : Bool × Bool) : (s.setLines l).txbuf = s.txbuf := rfl
@[simp] theorem State.setLines_rxbuf (l : Bool × Bool) : (s.setLines l).rxbuf = s.rxbuf := rfl
@[simp] theorem State.setLines_rxLen (l : Bool × Bool) : (s.setLines l).rxLen = s.rxLen := rfl
@[simp] theorem State.setLines_rxPresent (l : Bool × Bool) : (s.setLines l).rxPresent = s.rxPresent := rfl
@[simp] theorem State.setLines_seq (l : Bool × Bool) : (s.setLines l).seq = s.seq := rfl
@[simp] theorem State.setLines_pwrRep (l : Bool × Bool) : (s.setLines l).pwrRep = s.pwrRep := rfl
@[simp] theorem State.setLines_pollBusy (l : Bool × Bool) : (s.setLines l).pollBusy = s.pollBusy := rfl
@[simp] theorem State.setLines_lastDecoded (l : Bool × Bool) : (s.setLines l).lastDecoded = s.lastDecoded := rfl
@[simp] theorem State.setLines_snapshot (l : Bool × Bool) : (s.setLines l).snapshot = s.snapshot := rfl
@[simp] theorem State.setLines_xOwner (l : Bool × Bool) : (s.setLines l).xOwner = s.xOwner := rfl
@[simp] theorem State.setLines_xOk (l : Bool × Bool) : (s.setLines l).xOk = s.xOk := rfl
@[simp] theorem State.setLines_pollResult (l : Bool × Bool) : (s.setLines l).pollResult = s.pollResult := rfl
@[simp] theorem State.setLines_held (l : Bool × Bool) : (s.setLines l).held = s.held := rfl
@[simp] theorem State.setLines_hostIn (l : Bool × Bool) : (s.setLines l).hostIn = s.hostIn := rfl
@[simp] theorem State.setLines_env (l : Bool × Bool) : (s.setLines l).env = s.env := rfl
@[simp] theorem State.setLines_draws (l : Bool × Bool) : (s.setLines l).draws = s.draws := rfl
@[simp] theorem State.setLines_out (l : Bool × Bool) : (s.setLines l).out = s.out ++ [.link (.setControlLines l.1 l.2)] := rfl

/-! ### buildFrame -/

@[simp] theorem State.buildFrame_cfg (c : Byte) : (s.buildFrame c).cfg = s.cfg := rfl
@[simp] theorem State.buildFrame_portId (c : Byte) : (s.buildFrame c).portId = s.portId := rfl
@[simp] theorem State.buildFrame_configured (c : Byte) : (s.buildFrame c).configured = s.configured := rfl
@[simp] theorem State.buildFrame_dtr (c : Byte) : (s.buildFrame c).dtr = s.dtr := rfl
@[simp] theorem State.buildFrame_rts (c : Byte) : (s.buildFrame c).rts = s.rts := rfl
@[simp] theorem State.buildFrame_linkBusy (c : Byte) : (s.buildFrame c).linkBusy = s.linkBusy := rfl
@[simp] theorem State.buildFrame_portOpen (c : Byte) : (s.buildFrame c).portOpen = s.portOpen := rfl
@[simp] theorem State.buildFrame_cmdReg (c : Byte) : (s.buildFrame c).cmdReg = s.cmdReg := rfl
@[simp] theorem State.buildFrame_nReg (c : Byte) : (s.buildFrame c).nReg = s.nReg := rfl
@[simp] theorem State.buildFrame_rxbuf (c : Byte) : (s.buildFrame c).rxbuf = s.rxbuf := rfl
@[simp] theorem State.buildFrame_rxLen (c : Byte) : (s.buildFrame c).rxLen = s.rxLen := rfl
@[simp] theorem State.buildFrame_rxPresent (c : Byte) : (s.buildFrame c).rxPresent = s.rxPresent := rfl
@[simp] theorem State.buildFrame_seq (c : Byte) : (s.buildFrame c).seq = s.seq := rfl
@[simp] theorem State.buildFrame_pwrRep (c : Byte) : (s.buildFrame c).pwrRep = s.pwrRep := rfl
@[simp] theorem State.buildFrame_pollBusy (c : Byte) : (s.buildFrame c).pollBusy = s.pollBusy := rfl
@[simp] theorem State.buildFrame_lastDecoded (c : Byte) : (s.buildFrame c).lastDecoded = s.lastDecoded := rfl
@[simp] theorem State.buildFrame_snapshot (c : Byte) : (s.buildFrame c).snapshot = s.snapshot := rfl
@[simp] theorem State.buildFrame_xOwner (c : Byte) : (s.buildFrame c).xOwner = s.xOwner := rfl
@[simp] theorem State.buildFrame_xOk (c : Byte) : (s.buildFrame c).xOk = s.xOk := rfl
@[simp] theorem State.buildFrame_pollResult (c : Byte) : (s.buildFrame c).pollResult = s.pollResult := rfl
@[simp] theorem State.buildFrame_held (c : Byte) : (s.buildFrame c).held = s.held := rfl
@[simp] theorem State.buildFrame_hostIn (c : Byte) : (s.buildFrame c).hostIn = s.hostIn := rfl
@[simp] theorem State.buildFrame_env (c : Byte) : (s.buildFrame c).env = s.env := rfl
@[simp] theorem State.buildFrame_draws (c : Byte) : (s.buildFrame c).draws = s.draws := rfl
@[simp] theorem State.buildFrame_out (c : Byte) : (s.buildFrame c).out = s.out := rfl

/-! ### deliver -/

@[simp] theorem State.deliver_cfg (w : Caller) (r : Option Bytes) : (s.deliver w r).cfg = s.cfg := by cases w <;> rfl
@[simp] theorem State.deliver_portId (w : Caller) (r : Option Bytes) : (s.deliver w r).portId = s.portId := by cases w <;> rfl
@[simp] theorem State.deliver_configured (w : Caller) (r : Option Bytes) : (s.deliver w r).configured = s.configured := by cases w <;> rfl
@[simp] theorem State.deliver_dtr (w : Caller) (r : Option Bytes) : (s.deliver w r).dtr = s.dtr := by cases w <;> rfl
@[simp] theorem State.deliver_rts (w : Caller) (r : Option Bytes) : (s.deliver w r).rts = s.rts := by cases w <;> rfl
@[simp] theorem State.deliver_linkBusy (w : Caller) (r : Option Bytes) : (s.deliver w r).linkBusy = s.linkBusy := by cases w <;> rfl
@[simp] theorem State.deliver_portOpen (w : Caller) (r : Option Bytes) : (s.deliver w r).portOpen = s.portOpen := by cases w <;> rfl
@[simp] theorem State.deliver_cmdReg (w : Caller) (r : Option Bytes) : (s.deliver w r).cmdReg = s.cmdReg := by cases w <;> rfl
@[simp] theorem State.deliver_nReg (w : Caller) (r : Option Bytes) : (s.deliver w r).nReg = s.nReg := by cases w <;> rfl
@[simp] theorem State.deliver_txbuf (w : Caller) (r : Option Bytes) : (s.deliver w r).txbuf = s.txbuf := by cases w <;> rfl
@[simp] theorem State.deliver_rxbuf (w : Caller) (r : Option Bytes) : (s.deliver w r).rxbuf = s.rxbuf := by cases w <;> rfl
@[simp] theorem State.deliver_rxLen (w : Caller) (r : Option Bytes) : (s.deliver w r).rxLen = s.rxLen := by cases w <;> rfl
@[simp] theorem State.deliver_rxPresent (w : Caller) (r : Option Bytes) : (s.deliver w r).rxPresent = s.rxPresent := by cases w <;> rfl
@[simp] theorem State.deliver_seq (w : Caller) (r : Option Bytes) : (s.deliver w r).seq = s.seq := by cases w <;> rfl
@[simp] theorem State.deliver_pwrRep (w : Caller) (r : Option Bytes) : (s.deliver w r).pwrRep = s.pwrRep := by cases w <;> rfl
@[simp] theorem State.deliver_pollBusy (w : Caller) (r : Option Bytes) : (s.deliver w r).pollBusy = s.pollBusy := by cases w <;> rfl
@[simp] theorem State.deliver_lastDecoded (w : Caller) (r : Option Bytes) : (s.deliver w r).lastDecoded = s.lastDecoded := by cases w <;> rfl
@[simp] theorem State.deliver_snapshot (w : Caller) (r : Option Bytes) : (s.deliver w r).snapshot = s.snapshot := by cases w <;> rfl
@[simp] theorem State.deliver_xOwner (w : Caller) (r : Option Bytes) : (s.deliver w r).xOwner = s.xOwner := by cases w <;> rfl
@[simp] theorem State.deliver_xOk (w : Caller) (r : Option Bytes) : (s.deliver w r).xOk = s.xOk := by cases w <;> rfl
@[simp] theorem State.deliver_held (w : Caller) (r : Option Bytes) : (s.deliver w r).held = s.held := by cases w <;> rfl
@[simp] theorem State.deliver_hostIn (w : Caller) (r : Option Bytes) : (s.deliver w r).hostIn = s.hostIn := by cases w <;> rfl
@[simp] theorem State.deliver_env (w : Caller) (r : Option Bytes) : (s.deliver w r).env = s.env := by cases w <;> rfl
@[simp] theorem State.deliver_draws (w : Caller) (r : Option Bytes) : (s.deliver w r).draws = s.draws := by cases w <;> rfl
@[simp] theorem State.deliver_host (r : Option Bytes) : s.deliver .host r = s.emit (.result (.exchange r)) := rfl
@[simp] theorem State.deliver_poll (r : Option Bytes) : s.deliver .poll r = { s with pollResult := some r } := rfl

/-! ### popPort -/

@[simp] theorem State.popPort_cfg : (s.popPort).cfg = s.cfg := rfl
@[simp] theorem State.popPort_portId : (s.popPort).portId = s.portId := rfl
@[simp] theorem State.popPort_configured : (s.popPort).configured = s.configured := rfl
@[simp] theorem State.popPort_dtr : (s.popPort).dtr = s.dtr := rfl
@[simp] theorem State.popPort_rts : (s.popPort).rts = s.rts := rfl
@[simp] theorem State.popPort_linkBusy : (s.popPort).linkBusy = s.linkBusy := rfl
@[simp] theorem State.popPort_portOpen : (s.popPort).portOpen = s.portOpen := rfl
@[simp] theorem State.popPort_cmdReg : (s.popPort).cmdReg = s.cmdReg := rfl
@[simp] theorem State.popPort_nReg : (s.popPort).nReg = s.nReg := rfl
@[simp] theorem State.popPort_txbuf : (s.popPort).txbuf = s.txbuf := rfl
@[simp] theorem State.popPort_rxbuf : (s.popPort).rxbuf = s.rxbuf := rfl
@[simp] theorem State.popPort_rxLen : (s.popPort).rxLen = s.rxLen := rfl
@[simp] theorem State.popPort_rxPresent : (s.popPort).rxPresent = s.rxPresent := rfl
@[simp] theorem State.popPort_seq : (s.popPort).seq = s.seq := rfl
@[simp] theorem State.popPort_pwrRep : (s.popPort).pwrRep = s.pwrRep := rfl
@[simp] theorem State.popPort_pollBusy : (s.popPort).pollBusy = s.pollBusy := rfl
@[simp] theorem State.popPort_lastDecoded : (s.popPort).lastDecoded = s.lastDecoded := rfl
@[simp] theorem State.popPort_snapshot : (s.popPort).snapshot = s.snapshot := rfl
@[simp] theorem State.popPort_xOwner : (s.popPort).xOwner = s.xOwner := rfl
@[simp] theorem State.popPort_xOk : (s.popPort).xOk = s.xOk := rfl
@[simp] theorem State.popPort_pollResult : (s.popPort).pollResult = s.pollResult := rfl
@[simp] theorem State.popPort_held : (s.popPort).held = s.held := rfl
@[simp] theorem State.popPort_hostIn : (s.popPort).hostIn = s.hostIn.tail := rfl
@[simp] theorem State.popPort_env : (s.popPort).env = s.env := rfl
@[simp] theorem State.popPort_draws : (s.popPort).draws = s.draws := rfl
@[simp] theorem State.popPort_out : (s.popPort).out = s.out := rfl

/-! ### present -/

@[simp] theorem State.present_cfg (r : Request) : (s.present r).cfg = s.cfg := rfl
@[simp] theorem State.present_portId (r : Request) : (s.present r).portId = s.portId := rfl
@[simp] theorem State.present_configured (r : Request) : (s.present r).configured = s.configured := rfl
@[simp] theorem State.present_dtr (r : Request) : (s.present r).dtr = s.dtr := rfl
@[simp] theorem State.present_rts (r : Request) : (s.present r).rts = s.rts := rfl
@[simp] theorem State.present_linkBusy (r : Request) : (s.present r).linkBusy = s.linkBusy := rfl
@[simp] theorem State.present_portOpen (r : Request) : (s.present r).portOpen = s.portOpen := rfl
@[simp] theorem State.present_cmdReg (r : Request) : (s.present r).cmdReg = s.cmdReg := rfl
@[simp] theorem State.present_nReg (r : Request) : (s.present r).nReg = s.nReg := rfl
@[simp] theorem State.present_txbuf (r : Request) : (s.present r).txbuf = s.txbuf := rfl
@[simp] theorem State.present_rxbuf (r : Request) : (s.present r).rxbuf = s.rxbuf := rfl
@[simp] theorem State.present_rxLen (r : Request) : (s.present r).rxLen = s.rxLen := rfl
@[simp] theorem State.present_rxPresent (r : Request) : (s.present r).rxPresent = s.rxPresent := rfl
@[simp] theorem State.present_seq (r : Request) : (s.present r).seq = s.seq := rfl
@[simp] theorem State.present_pwrRep (r : Request) : (s.present r).pwrRep = s.pwrRep := rfl
@[simp] theorem State.present_pollBusy (r : Request) : (s.present r).pollBusy = s.pollBusy := rfl
@[simp] theorem State.present_lastDecoded (r : Request) : (s.present r).lastDecoded = s.lastDecoded := rfl
@[simp] theorem State.present_snapshot (r : Request) : (s.present r).snapshot = s.snapshot := rfl
@[simp] theorem State.present_xOwner (r : Request) : (s.present r).xOwner = s.xOwner := rfl
@[simp] theorem State.present_xOk (r : Request) : (s.present r).xOk = s.xOk := rfl
@[simp] theorem State.present_pollResult (r : Request) : (s.present r).pollResult = s.pollResult := rfl
@[simp] theorem State.present_held (r : Request) : (s.present r).held = s.held := rfl
@[simp] theorem State.present_hostIn (r : Request) : (s.present r).hostIn = some r :: s.hostIn := rfl
@[simp] theorem State.present_env (r : Request) : (s.present r).env = s.env := rfl
@[simp] theorem State.present_draws (r : Request) : (s.present r).draws = s.draws := rfl
@[simp] theorem State.present_out (r : Request) : (s.present r).out = s.out := rfl

/-! ### The port -/

@[simp] theorem State.present_presented (r : Request) : (s.present r).presented = some r := rfl
@[simp] theorem State.present_popPort (r : Request) : (s.present r).popPort = s := rfl

end Sys2Proof.Machine
end

