-- ==== Sys2Proof/Laws/Memory.lean ====
section
/-!
SUPPORT. The memory operations: a read after a write, and that every write keeps the canonical form.
-/

namespace Sys2Proof.Machine

/-- Entries that do not list an address read as nothing was there. -/
theorem Memory.read_eq_zero {m : Memory} {a : Nat} (h : ∀ cell ∈ m, cell.1 ≠ a) : m.read a = 0 := by
  induction m with
  | nil => rfl
  | cons cell m ih =>
    obtain ⟨k, b⟩ := cell
    have hk : k ≠ a := h (k, b) (by simp)
    simp [Memory.read, hk, ih fun c hc => h c (by simp [hc])]

/-- Reading through two lists: the first that lists the address decides. -/
theorem Memory.read_append_of_not_mem {m m' : Memory} {a : Nat} (h : ∀ cell ∈ m, cell.1 ≠ a) :
    Memory.read (m ++ m') a = Memory.read m' a := by
  induction m with
  | nil => rfl
  | cons cell m ih =>
    obtain ⟨k, b⟩ := cell
    have hk : k ≠ a := h (k, b) (by simp)
    simpa [Memory.read, hk] using ih fun c hc => h c (by simp [hc])

/-- Reading through two lists, the second of which does not list the address. -/
theorem Memory.read_append_left {m m' : Memory} {a : Nat} (h : ∀ cell ∈ m', cell.1 ≠ a) :
    Memory.read (m ++ m') a = Memory.read m a := by
  induction m with
  | nil => simpa [Memory.read] using Memory.read_eq_zero h
  | cons cell m ih =>
    obtain ⟨k, b⟩ := cell
    by_cases hk : k = a <;> simp [Memory.read, hk, ih]

/-- A filter that keeps the address's entries does not change what is read there. -/
theorem Memory.read_filter {m : Memory} {a : Nat} {p : Host.Cell → Bool} (h : ∀ b, p (a, b) = true) :
    Memory.read (m.filter p) a = Memory.read m a := by
  induction m with
  | nil => rfl
  | cons cell m ih =>
    obtain ⟨k, b⟩ := cell
    by_cases hk : k = a
    · subst hk; simp [h, Memory.read]
    · by_cases hp : p (k, b) = true <;> simp [hp, Memory.read, hk, ih]

theorem Memory.cellsFrom_bounds {base : Nat} {bs : Bytes} {cell : Host.Cell}
    (h : cell ∈ Memory.cellsFrom base bs) : base ≤ cell.1 ∧ cell.1 < base + bs.length ∧ cell.2 ≠ 0 := by
  induction bs generalizing base with
  | nil => simp [Memory.cellsFrom] at h
  | cons b bs ih =>
    simp only [Memory.cellsFrom, List.length_cons] at h ⊢
    split at h
    · obtain ⟨h₁, h₂, h₃⟩ := ih h; exact ⟨by omega, by omega, h₃⟩
    · rename_i hb
      rcases List.mem_cons.mp h with rfl | h
      · exact ⟨le_rfl, by simp, hb⟩
      · obtain ⟨h₁, h₂, h₃⟩ := ih h; exact ⟨by omega, by omega, h₃⟩

theorem Memory.read_cellsFrom {base : Nat} {bs : Bytes} {i : Nat} (h : i < bs.length) :
    Memory.read (Memory.cellsFrom base bs) (base + i) = bs[i] := by
  induction bs generalizing base i with
  | nil => simp at h
  | cons b bs ih =>
    cases i with
    | zero =>
      simp only [Memory.cellsFrom, Nat.add_zero, List.getElem_cons_zero]
      split
      · rename_i hb
        rw [hb]
        exact Memory.read_eq_zero fun c hc => by have := (Memory.cellsFrom_bounds hc).1; omega
      · simp [Memory.read]
    | succ i =>
      have h' : i < bs.length := by simpa using h
      have := ih (base := base + 1) h'
      simp only [Memory.cellsFrom, List.getElem_cons_succ]
      rw [show base + (i + 1) = base + 1 + i by omega]
      split
      · exact this
      · simpa [Memory.read, show base ≠ base + 1 + i by omega] using this

/-- Inside the written block, a read gives the byte written. -/
theorem Memory.read_writeBlock_inside (m : Memory) {base : Nat} {bs : Bytes} {i : Nat} (h : i < bs.length) :
    (m.writeBlock base bs).read (base + i) = bs[i] := by
  unfold Memory.writeBlock
  rw [List.append_assoc, Memory.read_append_of_not_mem, Memory.read_append_left, Memory.read_cellsFrom h]
  · intro cell hc
    simp only [List.mem_filter, decide_eq_true_eq] at hc
    omega
  · intro cell hc
    simp only [List.mem_filter, decide_eq_true_eq] at hc
    omega

/-- Outside the written block, every byte is as before. -/
theorem Memory.read_writeBlock_outside (m : Memory) {base : Nat} {bs : Bytes} {a : Nat}
    (h : a < base ∨ base + bs.length ≤ a) : (m.writeBlock base bs).read a = m.read a := by
  unfold Memory.writeBlock
  rcases h with h | h
  · rw [List.append_assoc, Memory.read_append_left, Memory.read_filter]
    · simpa using h
    · intro cell hc
      rcases List.mem_append.mp hc with hc | hc
      · have := (Memory.cellsFrom_bounds hc).1; omega
      · simp only [List.mem_filter, decide_eq_true_eq] at hc; omega
  · rw [List.append_assoc, Memory.read_append_of_not_mem, Memory.read_append_of_not_mem, Memory.read_filter]
    · simpa using h
    · intro cell hc; have := (Memory.cellsFrom_bounds hc).2.1; omega
    · intro cell hc; simp only [List.mem_filter, decide_eq_true_eq] at hc; omega

theorem Memory.read_write_self (m : Memory) (a : Nat) (b : Byte) : (m.write a b).read a = b := by
  simpa [Memory.write] using m.read_writeBlock_inside (base := a) (bs := [b]) (i := 0) (by simp)

theorem Memory.read_write_other (m : Memory) {a a' : Nat} (b : Byte) (h : a' ≠ a) :
    (m.write a b).read a' = m.read a' :=
  m.read_writeBlock_outside (by simp only [List.length_singleton]; omega)

theorem Memory.cellsFrom_pairwise (base : Nat) (bs : Bytes) :
    (Memory.cellsFrom base bs).Pairwise (fun x y => x.1 < y.1) := by
  induction bs generalizing base with
  | nil => simp [Memory.cellsFrom]
  | cons b bs ih =>
    simp only [Memory.cellsFrom]
    split
    · exact ih _
    · refine List.pairwise_cons.mpr ⟨fun c hc => ?_, ih _⟩
      have := (Memory.cellsFrom_bounds hc).1
      omega

/-- A write of bytes inside the space keeps the canonical form. -/
theorem Memory.writeBlock_wf {cap : Nat} {m : Memory} (h : Memory.wf cap m) {base : Nat} {bs : Bytes}
    (hb : base + bs.length ≤ cap) : Memory.wf cap (m.writeBlock base bs) := by
  obtain ⟨hp, hc⟩ := h
  unfold Memory.writeBlock
  constructor
  · rw [List.pairwise_append, List.pairwise_append]
    refine ⟨⟨hp.filter _, Memory.cellsFrom_pairwise _ _, ?_⟩, hp.filter _, ?_⟩
    · intro x hx y hy
      have := (Memory.cellsFrom_bounds hy).1
      simp only [List.mem_filter, decide_eq_true_eq] at hx
      omega
    · intro x hx y hy
      simp only [List.mem_append, List.mem_filter, decide_eq_true_eq] at hx hy
      rcases hx with hx | hx
      · omega
      · have := (Memory.cellsFrom_bounds hx).2.1; omega
  · intro cell hcell
    simp only [List.mem_append, List.mem_filter] at hcell
    rcases hcell with (h | h) | h
    · exact hc _ h.1
    · have := Memory.cellsFrom_bounds h; exact ⟨this.2.2, by omega⟩
    · exact hc _ h.1

theorem Memory.write_wf {cap : Nat} {m : Memory} (h : Memory.wf cap m) {a : Nat} (b : Byte) (ha : a < cap) :
    Memory.wf cap (m.write a b) :=
  Memory.writeBlock_wf h (by simpa using ha)

/-- Memory after reset is in canonical form. -/
theorem Memory.nil_wf (cap : Nat) : Memory.wf cap [] := ⟨List.Pairwise.nil, fun _ h => nomatch h⟩

@[simp] theorem Memory.readBlock_length (m : Memory) (base n : Nat) : (m.readBlock base n).length = n := by
  simp [Memory.readBlock]

/-- Reading back a whole written block gives the bytes written. -/
theorem Memory.readBlock_writeBlock (m : Memory) (base : Nat) (bs : Bytes) :
    (m.writeBlock base bs).readBlock base bs.length = bs := by
  apply List.ext_getElem
  · simp
  · intro i h₁ h₂
    simpa [Memory.readBlock] using m.read_writeBlock_inside (base := base) h₂

/-! ## The frame buffer -/

/-- After the frame build, TX holds the six bytes of `F-CMD` (R91, R123). -/
theorem State.buildFrame_txBytes (s : State) (c : Byte) : (s.buildFrame c).txBytes = frameBytes c := by
  simp [State.txBytes, State.buildFrame, Memory.readBlock, frameBytes, cmdLen, List.range_succ,
    Memory.read_write_self, Memory.read_write_other]

/-- The frame build touches the addresses 0 to 5 only. -/
theorem State.buildFrame_read_other (s : State) (c : Byte) {a : Nat} (h : 6 ≤ a) :
    (s.buildFrame c).txbuf.read a = s.txbuf.read a := by
  simp only [State.buildFrame]
  repeat rw [Memory.read_write_other _ _ (by omega)]

/-- The frame build keeps the canonical form of TX. -/
theorem State.buildFrame_txWf {s : State} (h : Memory.wf cmdLen s.txbuf) (c : Byte) :
    Memory.wf cmdLen (s.buildFrame c).txbuf := by
  simp only [State.buildFrame]
  repeat first | exact h | refine Memory.write_wf ?_ _ (by decide)

end Sys2Proof.Machine
end

