-- ==== Sys2Proof/Laws/Ops.lean ====
section
/-!
SUPPORT. What each shared operation of the machine can do, said once: PARSE, the push, the commit step, the grant, the phases,
the block's own move, the step.
-/

namespace Sys2Proof.Machine

/-! ## PARSE -/

/-- PARSE leaves the state alone, or sends one ParseWarning, or commits a snapshot (R213). -/
theorem State.parse_cases (s : State) (str : Str) :
    (parseString s.cfg str = .silent ∧ s.parse str = s) ∨
    (∃ info, parseString s.cfg str = .warning info ∧ s.parse str = s.emit (.report .parseWarning info)) ∨
    (∃ v, parseString s.cfg str = .commit v ∧ s.parse str = { s with snapshot := v }) := by
  unfold State.parse
  cases parseString s.cfg str with
  | silent => exact .inl ⟨rfl, rfl⟩
  | warning info => exact .inr (.inl ⟨info, rfl, rfl⟩)
  | commit v => exact .inr (.inr ⟨v, rfl, rfl⟩)

@[simp] theorem State.parse_cfg (s : State) (str : Str) : (s.parse str).cfg = s.cfg := by
  rcases s.parse_cases str with h | ⟨_, h⟩ | ⟨_, h⟩ <;> simp [h.2]
@[simp] theorem State.parse_portId (s : State) (str : Str) : (s.parse str).portId = s.portId := by
  rcases s.parse_cases str with h | ⟨_, h⟩ | ⟨_, h⟩ <;> simp [h.2]
@[simp] theorem State.parse_configured (s : State) (str : Str) : (s.parse str).configured = s.configured := by
  rcases s.parse_cases str with h | ⟨_, h⟩ | ⟨_, h⟩ <;> simp [h.2]
@[simp] theorem State.parse_dtr (s : State) (str : Str) : (s.parse str).dtr = s.dtr := by
  rcases s.parse_cases str with h | ⟨_, h⟩ | ⟨_, h⟩ <;> simp [h.2]
@[simp] theorem State.parse_rts (s : State) (str : Str) : (s.parse str).rts = s.rts := by
  rcases s.parse_cases str with h | ⟨_, h⟩ | ⟨_, h⟩ <;> simp [h.2]
@[simp] theorem State.parse_linkBusy (s : State) (str : Str) : (s.parse str).linkBusy = s.linkBusy := by
  rcases s.parse_cases str with h | ⟨_, h⟩ | ⟨_, h⟩ <;> simp [h.2]
@[simp] theorem State.parse_portOpen (s : State) (str : Str) : (s.parse str).portOpen = s.portOpen := by
  rcases s.parse_cases str with h | ⟨_, h⟩ | ⟨_, h⟩ <;> simp [h.2]
@[simp] theorem State.parse_cmdReg (s : State) (str : Str) : (s.parse str).cmdReg = s.cmdReg := by
  rcases s.parse_cases str with h | ⟨_, h⟩ | ⟨_, h⟩ <;> simp [h.2]
@[simp] theorem State.parse_nReg (s : State) (str : Str) : (s.parse str).nReg = s.nReg := by
  rcases s.parse_cases str with h | ⟨_, h⟩ | ⟨_, h⟩ <;> simp [h.2]
@[simp] theorem State.parse_txbuf (s : State) (str : Str) : (s.parse str).txbuf = s.txbuf := by
  rcases s.parse_cases str with h | ⟨_, h⟩ | ⟨_, h⟩ <;> simp [h.2]
@[simp] theorem State.parse_rxbuf (s : State) (str : Str) : (s.parse str).rxbuf = s.rxbuf := by
  rcases s.parse_cases str with h | ⟨_, h⟩ | ⟨_, h⟩ <;> simp [h.2]
@[simp] theorem State.parse_rxLen (s : State) (str : Str) : (s.parse str).rxLen = s.rxLen := by
  rcases s.parse_cases str with h | ⟨_, h⟩ | ⟨_, h⟩ <;> simp [h.2]
@[simp] theorem State.parse_rxPresent (s : State) (str : Str) : (s.parse str).rxPresent = s.rxPresent := by
  rcases s.parse_cases str with h | ⟨_, h⟩ | ⟨_, h⟩ <;> simp [h.2]
@[simp] theorem State.parse_seq (s : State) (str : Str) : (s.parse str).seq = s.seq := by
  rcases s.parse_cases str with h | ⟨_, h⟩ | ⟨_, h⟩ <;> simp [h.2]
@[simp] theorem State.parse_pwrRep (s : State) (str : Str) : (s.parse str).pwrRep = s.pwrRep := by
  rcases s.parse_cases str with h | ⟨_, h⟩ | ⟨_, h⟩ <;> simp [h.2]
@[simp] theorem State.parse_pollBusy (s : State) (str : Str) : (s.parse str).pollBusy = s.pollBusy := by
  rcases s.parse_cases str with h | ⟨_, h⟩ | ⟨_, h⟩ <;> simp [h.2]
@[simp] theorem State.parse_lastDecoded (s : State) (str : Str) : (s.parse str).lastDecoded = s.lastDecoded := by
  rcases s.parse_cases str with h | ⟨_, h⟩ | ⟨_, h⟩ <;> simp [h.2]
@[simp] theorem State.parse_xOwner (s : State) (str : Str) : (s.parse str).xOwner = s.xOwner := by
  rcases s.parse_cases str with h | ⟨_, h⟩ | ⟨_, h⟩ <;> simp [h.2]
@[simp] theorem State.parse_xOk (s : State) (str : Str) : (s.parse str).xOk = s.xOk := by
  rcases s.parse_cases str with h | ⟨_, h⟩ | ⟨_, h⟩ <;> simp [h.2]
@[simp] theorem State.parse_pollResult (s : State) (str : Str) : (s.parse str).pollResult = s.pollResult := by
  rcases s.parse_cases str with h | ⟨_, h⟩ | ⟨_, h⟩ <;> simp [h.2]
@[simp] theorem State.parse_held (s : State) (str : Str) : (s.parse str).held = s.held := by
  rcases s.parse_cases str with h | ⟨_, h⟩ | ⟨_, h⟩ <;> simp [h.2]
@[simp] theorem State.parse_hostIn (s : State) (str : Str) : (s.parse str).hostIn = s.hostIn := by
  rcases s.parse_cases str with h | ⟨_, h⟩ | ⟨_, h⟩ <;> simp [h.2]
@[simp] theorem State.parse_env (s : State) (str : Str) : (s.parse str).env = s.env := by
  rcases s.parse_cases str with h | ⟨_, h⟩ | ⟨_, h⟩ <;> simp [h.2]
@[simp] theorem State.parse_draws (s : State) (str : Str) : (s.parse str).draws = s.draws := by
  rcases s.parse_cases str with h | ⟨_, h⟩ | ⟨_, h⟩ <;> simp [h.2]

/-- PARSE sends nothing but reports: no push, no result, no Link call. -/
theorem State.parse_out (s : State) (str : Str) :
    (s.parse str).out = s.out ∨ ∃ info, (s.parse str).out = s.out ++ [.report .parseWarning info] := by
  rcases s.parse_cases str with h | ⟨info, h⟩ | ⟨_, h⟩
  · exact .inl (by rw [h.2])
  · exact .inr ⟨info, by rw [h.2]; rfl⟩
  · exact .inl (by rw [h.2])

/-- PARSE is its one step in every state (R208). -/
theorem execParse_eq (str : Str) (s : State) : execParse str s = .next ((s.parse str).emit (.result .void)) := rfl

/-! ## POLL's commit step -/

@[simp] theorem State.publish_cfg (s : State) (canon : Str) : (s.publish canon).cfg = s.cfg := by simp [State.publish]
@[simp] theorem State.publish_portId (s : State) (canon : Str) : (s.publish canon).portId = s.portId := by simp [State.publish]
@[simp] theorem State.publish_configured (s : State) (canon : Str) : (s.publish canon).configured = s.configured := by simp [State.publish]
@[simp] theorem State.publish_dtr (s : State) (canon : Str) : (s.publish canon).dtr = s.dtr := by simp [State.publish]
@[simp] theorem State.publish_rts (s : State) (canon : Str) : (s.publish canon).rts = s.rts := by simp [State.publish]
@[simp] theorem State.publish_linkBusy (s : State) (canon : Str) : (s.publish canon).linkBusy = s.linkBusy := by simp [State.publish]
@[simp] theorem State.publish_portOpen (s : State) (canon : Str) : (s.publish canon).portOpen = s.portOpen := by simp [State.publish]
@[simp] theorem State.publish_cmdReg (s : State) (canon : Str) : (s.publish canon).cmdReg = s.cmdReg := by simp [State.publish]
@[simp] theorem State.publish_nReg (s : State) (canon : Str) : (s.publish canon).nReg = s.nReg := by simp [State.publish]
@[simp] theorem State.publish_txbuf (s : State) (canon : Str) : (s.publish canon).txbuf = s.txbuf := by simp [State.publish]
@[simp] theorem State.publish_rxbuf (s : State) (canon : Str) : (s.publish canon).rxbuf = s.rxbuf := by simp [State.publish]
@[simp] theorem State.publish_rxLen (s : State) (canon : Str) : (s.publish canon).rxLen = s.rxLen := by simp [State.publish]
@[simp] theorem State.publish_rxPresent (s : State) (canon : Str) : (s.publish canon).rxPresent = s.rxPresent := by simp [State.publish]
@[simp] theorem State.publish_seq (s : State) (canon : Str) : (s.publish canon).seq = s.seq := by simp [State.publish]
@[simp] theorem State.publish_pwrRep (s : State) (canon : Str) : (s.publish canon).pwrRep = s.pwrRep := by simp [State.publish]
@[simp] theorem State.publish_pollBusy (s : State) (canon : Str) : (s.publish canon).pollBusy = s.pollBusy := by simp [State.publish]
@[simp] theorem State.publish_xOwner (s : State) (canon : Str) : (s.publish canon).xOwner = s.xOwner := by simp [State.publish]
@[simp] theorem State.publish_xOk (s : State) (canon : Str) : (s.publish canon).xOk = s.xOk := by simp [State.publish]
@[simp] theorem State.publish_pollResult (s : State) (canon : Str) : (s.publish canon).pollResult = s.pollResult := by simp [State.publish]
@[simp] theorem State.publish_held (s : State) (canon : Str) : (s.publish canon).held = s.held := by simp [State.publish]
@[simp] theorem State.publish_hostIn (s : State) (canon : Str) : (s.publish canon).hostIn = s.hostIn := by simp [State.publish]
@[simp] theorem State.publish_env (s : State) (canon : Str) : (s.publish canon).env = s.env := by simp [State.publish]
@[simp] theorem State.publish_draws (s : State) (canon : Str) : (s.publish canon).draws = s.draws := by simp [State.publish]
@[simp] theorem State.publish_lastDecoded (s : State) (canon : Str) : (s.publish canon).lastDecoded = canon := by
  simp [State.publish]

/-- The push carries the snapshot as it stands after the parse (R206). -/
theorem State.publish_out (s : State) (canon : Str) :
    (s.publish canon).out = ({ s with lastDecoded := canon }.parse canon).out ++ [.push (s.publish canon).snapshot] := by
  simp [State.publish]

/-- The commit step without a change: only `poll_busy` and POLL's own value are cleared (R204). -/
theorem State.commitPoll_same {s : State} {r : Option Bytes} (h : canonOf s.cfg r = s.lastDecoded) :
    s.commitPoll r = { s with pollBusy := false, pollResult := none }.emit (.result .void) := by
  simp [State.commitPoll, h]

/-- The commit step with a change (R205, R206). -/
theorem State.commitPoll_changed {s : State} {r : Option Bytes} (h : canonOf s.cfg r ≠ s.lastDecoded) :
    s.commitPoll r =
      { s.publish (canonOf s.cfg r) with pollBusy := false, pollResult := none }.emit (.result .void) := by
  simp [State.commitPoll, h]

@[simp] theorem State.commitPoll_cfg (s : State) (r : Option Bytes) : (s.commitPoll r).cfg = s.cfg := by
  by_cases h : canonOf s.cfg r = s.lastDecoded <;> simp [State.commitPoll, h]
@[simp] theorem State.commitPoll_portId (s : State) (r : Option Bytes) : (s.commitPoll r).portId = s.portId := by
  by_cases h : canonOf s.cfg r = s.lastDecoded <;> simp [State.commitPoll, h]
@[simp] theorem State.commitPoll_configured (s : State) (r : Option Bytes) : (s.commitPoll r).configured = s.configured := by
  by_cases h : canonOf s.cfg r = s.lastDecoded <;> simp [State.commitPoll, h]
@[simp] theorem State.commitPoll_dtr (s : State) (r : Option Bytes) : (s.commitPoll r).dtr = s.dtr := by
  by_cases h : canonOf s.cfg r = s.lastDecoded <;> simp [State.commitPoll, h]
@[simp] theorem State.commitPoll_rts (s : State) (r : Option Bytes) : (s.commitPoll r).rts = s.rts := by
  by_cases h : canonOf s.cfg r = s.lastDecoded <;> simp [State.commitPoll, h]
@[simp] theorem State.commitPoll_linkBusy (s : State) (r : Option Bytes) : (s.commitPoll r).linkBusy = s.linkBusy := by
  by_cases h : canonOf s.cfg r = s.lastDecoded <;> simp [State.commitPoll, h]
@[simp] theorem State.commitPoll_portOpen (s : State) (r : Option Bytes) : (s.commitPoll r).portOpen = s.portOpen := by
  by_cases h : canonOf s.cfg r = s.lastDecoded <;> simp [State.commitPoll, h]
@[simp] theorem State.commitPoll_cmdReg (s : State) (r : Option Bytes) : (s.commitPoll r).cmdReg = s.cmdReg := by
  by_cases h : canonOf s.cfg r = s.lastDecoded <;> simp [State.commitPoll, h]
@[simp] theorem State.commitPoll_nReg (s : State) (r : Option Bytes) : (s.commitPoll r).nReg = s.nReg := by
  by_cases h : canonOf s.cfg r = s.lastDecoded <;> simp [State.commitPoll, h]
@[simp] theorem State.commitPoll_txbuf (s : State) (r : Option Bytes) : (s.commitPoll r).txbuf = s.txbuf := by
  by_cases h : canonOf s.cfg r = s.lastDecoded <;> simp [State.commitPoll, h]
@[simp] theorem State.commitPoll_rxbuf (s : State) (r : Option Bytes) : (s.commitPoll r).rxbuf = s.rxbuf := by
  by_cases h : canonOf s.cfg r = s.lastDecoded <;> simp [State.commitPoll, h]
@[simp] theorem State.commitPoll_rxLen (s : State) (r : Option Bytes) : (s.commitPoll r).rxLen = s.rxLen := by
  by_cases h : canonOf s.cfg r = s.lastDecoded <;> simp [State.commitPoll, h]
@[simp] theorem State.commitPoll_rxPresent (s : State) (r : Option Bytes) : (s.commitPoll r).rxPresent = s.rxPresent := by
  by_cases h : canonOf s.cfg r = s.lastDecoded <;> simp [State.commitPoll, h]
@[simp] theorem State.commitPoll_seq (s : State) (r : Option Bytes) : (s.commitPoll r).seq = s.seq := by
  by_cases h : canonOf s.cfg r = s.lastDecoded <;> simp [State.commitPoll, h]
@[simp] theorem State.commitPoll_pwrRep (s : State) (r : Option Bytes) : (s.commitPoll r).pwrRep = s.pwrRep := by
  by_cases h : canonOf s.cfg r = s.lastDecoded <;> simp [State.commitPoll, h]
@[simp] theorem State.commitPoll_pollBusy (s : State) (r : Option Bytes) : (s.commitPoll r).pollBusy = false := by
  by_cases h : canonOf s.cfg r = s.lastDecoded <;> simp [State.commitPoll, h]
@[simp] theorem State.commitPoll_xOwner (s : State) (r : Option Bytes) : (s.commitPoll r).xOwner = s.xOwner := by
  by_cases h : canonOf s.cfg r = s.lastDecoded <;> simp [State.commitPoll, h]
@[simp] theorem State.commitPoll_xOk (s : State) (r : Option Bytes) : (s.commitPoll r).xOk = s.xOk := by
  by_cases h : canonOf s.cfg r = s.lastDecoded <;> simp [State.commitPoll, h]
@[simp] theorem State.commitPoll_pollResult (s : State) (r : Option Bytes) : (s.commitPoll r).pollResult = none := by
  by_cases h : canonOf s.cfg r = s.lastDecoded <;> simp [State.commitPoll, h]
@[simp] theorem State.commitPoll_held (s : State) (r : Option Bytes) : (s.commitPoll r).held = s.held := by
  by_cases h : canonOf s.cfg r = s.lastDecoded <;> simp [State.commitPoll, h]
@[simp] theorem State.commitPoll_hostIn (s : State) (r : Option Bytes) : (s.commitPoll r).hostIn = s.hostIn := by
  by_cases h : canonOf s.cfg r = s.lastDecoded <;> simp [State.commitPoll, h]
@[simp] theorem State.commitPoll_env (s : State) (r : Option Bytes) : (s.commitPoll r).env = s.env := by
  by_cases h : canonOf s.cfg r = s.lastDecoded <;> simp [State.commitPoll, h]
@[simp] theorem State.commitPoll_draws (s : State) (r : Option Bytes) : (s.commitPoll r).draws = s.draws := by
  by_cases h : canonOf s.cfg r = s.lastDecoded <;> simp [State.commitPoll, h]

/-- After the commit step `lastDecoded` is the canonical string of this poll cycle (R205). -/
@[simp] theorem State.commitPoll_lastDecoded (s : State) (r : Option Bytes) :
    (s.commitPoll r).lastDecoded = canonOf s.cfg r := by
  by_cases h : canonOf s.cfg r = s.lastDecoded <;> simp [State.commitPoll, h]

/-! ## EXCHANGE -/

/-- A requested EXCHANGE that goes on is held, or granted (R124). -/
theorem requestExchange_next {owner : Caller} {c : Byte} {n : Nat} {s t : State}
    (h : requestExchange owner c n s = .next t) :
    n ≤ rxCap ∧ ((s.linkBusy = true ∧ t = { s with held := s.held ++ [.exchange owner c n] }) ∨
      (s.linkBusy = false ∧ grantExchange owner c n s = .next t)) := by
  unfold requestExchange at h
  split at h
  · cases h
  · rename_i hn
    refine ⟨by omega, ?_⟩
    split at h
    · rename_i hb
      cases h
      exact .inl ⟨hb, rfl⟩
    · rename_i hb
      exact .inr ⟨by simpa using hb, h⟩

/-- A grant starts the exchange, or ends it at once when the link is not configured (R124, R125). -/
theorem grantExchange_next {owner : Caller} {c : Byte} {n : Nat} {s t : State}
    (h : grantExchange owner c n s = .next t) :
    s.seq.isPower = false ∧
    ((s.configured = true ∧
        t = { { s with linkBusy := true, cmdReg := c, nReg := n, rxPresent := false }.buildFrame c with
              seq := .xOpen, xOwner := owner, xOk := false }) ∨
      (s.configured = false ∧
        t = State.deliver { { s with linkBusy := true, cmdReg := c, nReg := n, rxPresent := false }.buildFrame c with
              linkBusy := false } owner none)) := by
  unfold grantExchange at h
  split at h
  · cases h
  · rename_i hp
    refine ⟨by simpa using hp, ?_⟩
    split at h
    · rename_i hc
      cases h
      exact .inl ⟨hc, rfl⟩
    · rename_i hc
      cases h
      exact .inr ⟨by simpa using hc, rfl⟩

/-! ## The block's own move and the step -/

/-- With nothing to do the block waits. -/
theorem advance_idle {s : State} (h : s.moves = []) : advance s = .next s := by simp [advance, h]

/-- With one move open it is taken, and nothing is drawn. -/
theorem advance_single {s : State} {m : Move} (h : s.moves = [m]) : advance s = runMove m s := by simp [advance, h]

/-- The block's own step waits, or runs one of the moves open to it; the counter and the choices may have advanced. -/
theorem advance_cases (s : State) :
    (s.moves = [] ∧ advance s = .next s) ∨
    (∃ m u, m ∈ s.moves ∧ (u = s ∨ u = s.afterPick) ∧ advance s = runMove m u) := by
  unfold advance
  match hm : s.moves with
  | [] => exact .inl ⟨rfl, rfl⟩
  | [m] => exact .inr ⟨m, s, by simp, .inl rfl, rfl⟩
  | m :: m' :: ms =>
    refine .inr ⟨_, s.afterPick, ?_, .inr rfl, rfl⟩
    have hlt : s.pickDraw % (ms.length + 2) < (m :: m' :: ms).length := Nat.mod_lt _ (by omega)
    rw [List.getD_eq_getElem _ _ hlt]
    exact List.getElem_mem hlt

/-- Of several moves the scripted choice decides (R74). -/
theorem advance_picked {s : State} {m : Move} {k : Nat} (h2 : 2 ≤ s.moves.length) (hm : s.moves[k]? = some m)
    (hp : s.env.picks.head? = some k) : advance s = runMove m s.afterPick := by
  obtain ⟨hk, rfl⟩ := List.getElem?_eq_some_iff.mp hm
  have hd : s.pickDraw = k := by rw [State.pickDraw, List.headD_eq_head?_getD, hp, Option.getD_some]
  unfold advance
  split
  · rename_i h; simp [h] at h2
  · rename_i h; simp [h] at h2
  · rename_i m m' ms h
    have hlt : k < ms.length + 2 := by rwa [h] at hk
    simp only [hd, Nat.mod_eq_of_lt hlt, ← h]
    rw [List.getD_eq_getElem _ _ hk]

/-- The grants are of callers that are held, with the lock free. -/
theorem mem_grantMoves {s : State} {m : Move} (h : m ∈ s.grantMoves) :
    ∃ k w, m = .grant k ∧ s.held[k]? = some w ∧ s.linkBusy = false := by
  cases hb : s.linkBusy <;> simp only [State.grantMoves, hb, if_true, if_false, Bool.false_eq_true, List.mem_map,
    List.mem_range, List.not_mem_nil] at h
  obtain ⟨k, hk, rfl⟩ := h
  exact ⟨k, _, rfl, List.getElem?_eq_getElem hk, rfl⟩

/-- With the lock free every held caller's grant is offered as a move. -/
theorem grant_mem_moves {s : State} {k : Nat} (hk : k < s.held.length) (hb : s.linkBusy = false) : .grant k ∈ s.moves := by
  simp [State.moves, State.grantMoves, hk, hb]

/-- In `IDLE`, the lock free and no POLL before its commit step, the moves are the grants of the callers held (R74, R129). -/
theorem moves_of_free {s : State} (hb : s.linkBusy = false) (hq : s.seq = .idle) (hr : s.pollResult = none) :
    s.moves = (List.range s.held.length).map .grant := by
  simp [State.moves, State.commitMoves, State.grantMoves, Phase.isIdle, hb, hq, hr]

/-- Outside `IDLE`, with no caller held, the only move is the phase (R36). -/
theorem moves_of_phase {s : State} (hq : s.seq ≠ .idle) (hh : s.held = []) : s.moves = [.phase] := by
  cases hs : s.seq <;> simp_all [State.moves, State.grantMoves, Phase.isIdle]

/-- In `IDLE`, with no caller held, the only move is the commit step of the POLL whose exchange has returned (R36, R201). -/
theorem moves_of_commit {s : State} {r : Option Bytes} (hq : s.seq = .idle) (hr : s.pollResult = some r)
    (hh : s.held = []) : s.moves = [.commit r] := by
  simp [State.moves, State.commitMoves, State.grantMoves, Phase.isIdle, hq, hr, hh]

/-- Which moves are open: outside `IDLE` the phase, in `IDLE` the commit step, and the grants while the lock is free. -/
theorem mem_moves {s : State} {m : Move} (h : m ∈ s.moves) :
    (m = .phase ∧ s.seq.isIdle = false) ∨ (∃ r, m = .commit r ∧ s.pollResult = some r ∧ s.seq.isIdle = true) ∨
    (∃ k w, m = .grant k ∧ s.held[k]? = some w ∧ s.linkBusy = false) := by
  rcases List.mem_append.mp h with h | h
  · split at h
    · rename_i hi
      cases hr : s.pollResult with
      | none => simp [State.commitMoves, hr] at h
      | some r => exact .inr (.inl ⟨r, by simpa [State.commitMoves, hr] using h, rfl, hi⟩)
    · rename_i hi
      exact .inl ⟨by simpa using h, by simpa using hi⟩
  · exact .inr (.inr (mem_grantMoves h))

/-- During an exchange the only move is its next phase (R36, R74). -/
theorem moves_of_exchange {s : State} (hb : s.linkBusy = true) (hq : s.seq.isIdle = false) : s.moves = [.phase] := by
  simp [State.moves, State.grantMoves, hq, hb]

/-- A request that decodes is executed. -/
theorem runRequest_of_ok {r : Request} {i : Instr} (h : decode r = .ok i) (s : State) : runRequest r s = exec i s := by
  cases r with
  | hostop op arg =>
    simp only [decode, Except.ok.injEq] at h
    simp only [runRequest, h]
  | wire bytes =>
    simp only [decode] at h
    simp only [runRequest, h]

/-- A request that does not decode is a wire frame, and gets DECODE's answer (R95, R103). -/
theorem runRequest_of_error {r : Request} {why : DecodeReject} (h : decode r = .error why) (s : State) :
    ∃ bytes, r = .wire bytes ∧
      runRequest r s = .next (s.emit (.result (.decode (decodeResponse s.cfg (some bytes))))) := by
  cases r with
  | hostop op arg => simp [decode] at h
  | wire bytes =>
    simp only [decode] at h
    exact ⟨bytes, rfl, by simp only [runRequest, h]; rfl⟩

/-- The port plays no part in which moves are open. -/
@[simp] theorem State.popPort_moves (s : State) : s.popPort.moves = s.moves := rfl

/-- With nothing presented a step is the block's own move. -/
theorem step_of_none {s : State} (h : s.presented = none) : step s = advance s.popPort := by
  simp only [step, h]

/-- What a step is: the presented request decoded and executed, or the block's own move. -/
theorem step_cases (s : State) :
    (∃ r, s.presented = some r ∧ step s = runRequest r s.popPort) ∨
    (s.presented = none ∧ step s = advance s.popPort) := by
  unfold step
  cases hp : s.presented with
  | none => exact .inr ⟨rfl, rfl⟩
  | some r => exact .inl ⟨r, rfl, rfl⟩

/-- What a step that goes on has done: an instruction, the answer to an invalid frame, nothing, or one move of the block. -/
theorem step_next {s t : State} (h : step s = .next t) :
    (∃ r i, s.presented = some r ∧ decode r = .ok i ∧ exec i s.popPort = .next t) ∨
    (∃ bytes, s.presented = some (.wire bytes) ∧
      t = s.popPort.emit (.result (.decode (decodeResponse s.cfg (some bytes))))) ∨
    (s.presented = none ∧ s.popPort.moves = [] ∧ t = s.popPort) ∨
    (s.presented = none ∧ ∃ m u, m ∈ s.popPort.moves ∧ (u = s.popPort ∨ u = s.popPort.afterPick) ∧
      runMove m u = .next t) := by
  rcases step_cases s with ⟨r, hp, hs⟩ | ⟨hp, hs⟩
  · rw [hs] at h
    cases hd : decode r with
    | ok i => exact .inl ⟨r, i, hp, hd, runRequest_of_ok hd _ ▸ h⟩
    | error why =>
      obtain ⟨bytes, rfl, he⟩ := runRequest_of_error hd s.popPort
      rw [he] at h
      cases h
      exact .inr (.inl ⟨bytes, hp, rfl⟩)
  · rw [hs] at h
    rcases advance_cases s.popPort with ⟨hm, ha⟩ | ⟨m, u, hm, hu, ha⟩
    · rw [ha] at h
      cases h
      exact .inr (.inr (.inl ⟨hp, hm, rfl⟩))
    · rw [ha] at h
      exact .inr (.inr (.inr ⟨hp, m, u, hm, hu, h⟩))

/-! ## Runs -/

/-- A run of no step. -/
theorem core_run_zero (s : State) : Sys2Proof.core.run 0 s = .next s := rfl

/-- A run goes on from what its first step leaves. -/
theorem core_run_next {s t : State} (h : step s = .next t) (k : Nat) :
    Sys2Proof.core.run (k + 1) s = Sys2Proof.core.run k t := by
  have h' : Sys2Proof.core.step s = .next t := h
  simp only [Host.Core.run, h']

/-- A run ends where its first step is refused. -/
theorem core_run_refused {s : State} {r : Refusal} (h : step s = .refused r) (k : Nat) :
    Sys2Proof.core.run (k + 1) s = .refused r := by
  have h' : Sys2Proof.core.step s = .refused r := h
  simp only [Host.Core.run, h']

/-- A run ends where its first step faults. -/
theorem core_run_fault {s : State} {f : Fault} (h : step s = .fault f) (k : Nat) :
    Sys2Proof.core.run (k + 1) s = .fault f := by
  have h' : Sys2Proof.core.step s = .fault f := h
  simp only [Host.Core.run, h']

end Sys2Proof.Machine
end

