-- ==== Sys2Proof/Laws/PerInstr.lean ====
section
/-!
SUPPORT. Statements made once per instruction. Family `TableRow`: the request that carries a well-formed instruction has the bits
its row of spec/opcode_table.json gives.
-/

namespace Sys2Proof.Laws

open Machine

/-- The bits of a frame as the table numbers them: byte 0 is the most significant. -/
def natOfBytes (bytes : Bytes) : Nat := bytes.foldl (fun n b => 256 * n + b.toNat) 0

/-- Match, mask and constraint of an instruction's row, on a request. -/
def rowMatches : Instr → Request → Prop
  | .cmdframe _, .wire bytes =>
    bytes.length = 6 ∧ natOfBytes bytes &&& 0xFFFFFFFF0000 = 0x555555010000 ∧ byteAt bytes 5 = byteAt bytes 4
  | .queryDisplay, .wire bytes => bytes.length = 6 ∧ natOfBytes bytes = 0x555555018080
  | .respDisplay _, .wire bytes =>
    bytes.length = 371 ∧ byteAt bytes 0 = 0xAA ∧ byteAt bytes 1 = 0xAA ∧ byteAt bytes 2 = 0xAA
  | .setup _, .hostop op _ => op = 0b000
  | .exchange _ _, .hostop op arg => op = 0b001 ∧ arg.n ≤ 371
  | .poweron, .hostop op _ => op = 0b010
  | .poll, .hostop op _ => op = 0b011
  | .getsnapshot, .hostop op _ => op = 0b100
  | .decode _, .hostop op _ => op = 0b101
  | .parse _, .hostop op _ => op = 0b110
  | .cmap _, .hostop op _ => op = 0b111
  | _, _ => False

/-- The encoding of a well-formed instruction has its row's bits. -/
def TableRow.Statement (i : Instr) : Prop := i.WellFormed → rowMatches i (encode i)

theorem TableRow.cmdframe (c : Byte) : TableRow.Statement (.cmdframe c) := by
  intro _
  refine ⟨rfl, ?_, rfl⟩
  revert c
  decide

theorem TableRow.queryDisplay : TableRow.Statement .queryDisplay := fun _ => ⟨rfl, by decide⟩

theorem TableRow.respDisplay (raw : Bytes) : TableRow.Statement (.respDisplay raw) := by
  intro h
  simp only [Instr.WellFormed, Instr.wellFormed, Bool.and_eq_true, decide_eq_true_eq, beq_iff_eq] at h
  exact ⟨h.1.1.1, h.1.1.2, h.1.2, h.2⟩

theorem TableRow.setup (pid : Option Str) : TableRow.Statement (.setup pid) := fun _ => rfl

theorem TableRow.exchange (c : Byte) (n : Nat) : TableRow.Statement (.exchange c n) := by
  intro h
  exact ⟨rfl, of_decide_eq_true (p := n ≤ rxCap) h⟩

theorem TableRow.poweron : TableRow.Statement .poweron := fun _ => rfl

theorem TableRow.poll : TableRow.Statement .poll := fun _ => rfl

theorem TableRow.getsnapshot : TableRow.Statement .getsnapshot := fun _ => rfl

theorem TableRow.decode (raw : Option Bytes) : TableRow.Statement (.decode raw) := fun _ => rfl

theorem TableRow.parse (s : Str) : TableRow.Statement (.parse s) := fun _ => rfl

theorem TableRow.cmap (b : Byte) : TableRow.Statement (.cmap b) := fun _ => rfl

end Sys2Proof.Laws
end

