-- ==== Sys2Proof/Laws/Trace.lean ====
section
/-!
SUPPORT. What each view of the trace of the ports makes of events that are sent after others, and of a single event.
-/

namespace Sys2Proof.Machine

/-! ## One after the other -/

@[simp] theorem linkTrace_append (es fs : List Event) : linkTrace (es ++ fs) = linkTrace es ++ linkTrace fs :=
  List.filterMap_append
@[simp] theorem pushes_append (es fs : List Event) : pushes (es ++ fs) = pushes es ++ pushes fs :=
  List.filterMap_append
@[simp] theorem reports_append (es fs : List Event) : reports (es ++ fs) = reports es ++ reports fs :=
  List.filterMap_append
@[simp] theorem results_append (es fs : List Event) : results (es ++ fs) = results es ++ results fs :=
  List.filterMap_append
@[simp] theorem lineCalls_append (cs ds : List LinkCall) : lineCalls (cs ++ ds) = lineCalls cs ++ lineCalls ds :=
  List.filterMap_append

/-! ## Nothing -/

@[simp] theorem linkTrace_nil : linkTrace [] = [] := rfl
@[simp] theorem pushes_nil : pushes [] = [] := rfl
@[simp] theorem reports_nil : reports [] = [] := rfl
@[simp] theorem results_nil : results [] = [] := rfl
@[simp] theorem lineCalls_nil : lineCalls [] = [] := rfl

/-! ## One event -/

@[simp] theorem linkTrace_link (c : LinkCall) (es : List Event) : linkTrace (.link c :: es) = c :: linkTrace es := rfl
@[simp] theorem linkTrace_sleep (ms : Nat) (a : SleepAnswer) (es : List Event) : linkTrace (.sleep ms a :: es) = linkTrace es := rfl
@[simp] theorem linkTrace_report (k : ErrorKind) (i : ReportInfo) (es : List Event) : linkTrace (.report k i :: es) = linkTrace es := rfl
@[simp] theorem linkTrace_push (v : Snapshot) (es : List Event) : linkTrace (.push v :: es) = linkTrace es := rfl
@[simp] theorem linkTrace_result (r : Result) (es : List Event) : linkTrace (.result r :: es) = linkTrace es := rfl
@[simp] theorem pushes_link (c : LinkCall) (es : List Event) : pushes (.link c :: es) = pushes es := rfl
@[simp] theorem pushes_sleep (ms : Nat) (a : SleepAnswer) (es : List Event) : pushes (.sleep ms a :: es) = pushes es := rfl
@[simp] theorem pushes_report (k : ErrorKind) (i : ReportInfo) (es : List Event) : pushes (.report k i :: es) = pushes es := rfl
@[simp] theorem pushes_push (v : Snapshot) (es : List Event) : pushes (.push v :: es) = v :: pushes es := rfl
@[simp] theorem pushes_result (r : Result) (es : List Event) : pushes (.result r :: es) = pushes es := rfl
@[simp] theorem reports_link (c : LinkCall) (es : List Event) : reports (.link c :: es) = reports es := rfl
@[simp] theorem reports_sleep (ms : Nat) (a : SleepAnswer) (es : List Event) : reports (.sleep ms a :: es) = reports es := rfl
@[simp] theorem reports_report (k : ErrorKind) (i : ReportInfo) (es : List Event) : reports (.report k i :: es) = k :: reports es := rfl
@[simp] theorem reports_push (v : Snapshot) (es : List Event) : reports (.push v :: es) = reports es := rfl
@[simp] theorem reports_result (r : Result) (es : List Event) : reports (.result r :: es) = reports es := rfl
@[simp] theorem results_link (c : LinkCall) (es : List Event) : results (.link c :: es) = results es := rfl
@[simp] theorem results_sleep (ms : Nat) (a : SleepAnswer) (es : List Event) : results (.sleep ms a :: es) = results es := rfl
@[simp] theorem results_report (k : ErrorKind) (i : ReportInfo) (es : List Event) : results (.report k i :: es) = results es := rfl
@[simp] theorem results_push (v : Snapshot) (es : List Event) : results (.push v :: es) = results es := rfl
@[simp] theorem results_result (r : Result) (es : List Event) : results (.result r :: es) = r :: results es := rfl

/-! ## One Link call -/

@[simp] theorem lineCalls_configure (p : Str) (l : LinkConfig) (a : Bool) (cs : List LinkCall) : lineCalls (.configure p l a :: cs) = lineCalls cs := rfl
@[simp] theorem lineCalls_setControlLines (d r : Bool) (cs : List LinkCall) : lineCalls (.setControlLines d r :: cs) = (d, r) :: lineCalls cs := rfl
@[simp] theorem lineCalls_openPort (a : Bool) (cs : List LinkCall) : lineCalls (.openPort a :: cs) = lineCalls cs := rfl
@[simp] theorem lineCalls_write (bs : Bytes) (a : WriteAnswer) (cs : List LinkCall) : lineCalls (.write bs a :: cs) = lineCalls cs := rfl
@[simp] theorem lineCalls_readExact (n ms : Nat) (a : Option Bytes) (cs : List LinkCall) : lineCalls (.readExact n ms a :: cs) = lineCalls cs := rfl
@[simp] theorem lineCalls_closePort (cs : List LinkCall) : lineCalls (.closePort :: cs) = lineCalls cs := rfl

end Sys2Proof.Machine
end

