-- ==== Sys2Proof/Tests/Slice0.lean ====
section
/-!
SUPPORT. Tests: the ill-formed terms, the words of the spec's tables, vectors of spec/95_test_vectors.md on one step, and for
each statement with hypotheses a state and operands that meet them. The test instance is T0 of that file, with the infinity
sign at the open high keys.
-/

namespace Sys2Proof.Tests

open Sys2Proof Sys2Proof.Machine

/-! ## Helpers -/

/-- T0's blank snapshot, in the place of the open `SNAP_RESET`. -/
def blank : Snapshot := ⟨Vector.replicate 8 false, Vector.replicate 8 (Vector.replicate 40 ' '), []⟩

/-- The reset state of R43 under T0, the open values at false and zero. -/
def idle : State where
  cfg := Params.t0Witness
  portId := none
  configured := false
  dtr := false
  rts := false
  linkBusy := false
  portOpen := false
  cmdReg := 0
  nReg := 0
  txbuf := []
  rxbuf := []
  rxLen := 0
  rxPresent := false
  seq := .idle
  pwrRep := 0
  pollBusy := false
  lastDecoded := [' ']
  snapshot := blank
  xOwner := .host
  xOk := false
  pollResult := none
  held := []
  hostIn := []
  env := {}
  draws := 0
  out := []

/-- The state after the accepted SETUP of V-S1, without its trace. -/
def ready : State := { idle with portId := some ['A'], configured := true, dtr := true }

/-- A display query that has been granted. -/
def started (owner : Caller) : State :=
  { ready with linkBusy := true, seq := .xOpen, cmdReg := 0x80, nReg := 371, xOwner := owner,
               txbuf := [(0, 0x55), (1, 0x55), (2, 0x55), (3, 0x01), (4, 0x80), (5, 0x80)] }

/-- The port is open, the read is next, for two bytes. -/
def reading : State :=
  { started .host with seq := .xRead, portOpen := true, nReg := 2, out := [.link (.openPort true), .link (.write (frameBytes 0x80) .accepted)] }

/-- A hold of POWERON. -/
def holding : State := { ready with seq := .pHold, dtr := false, rts := true }

/-- A response frame of section 0 of the vectors, with zeros where its bytes are free. -/
def frameOf (led : Byte) (glyphs attrs : Bytes) : Bytes :=
  [0xAA, 0xAA, 0xAA, 0, 0, 0, 0, 0, led] ++ glyphs ++ attrs ++ [0, 0]

/-- `F1`. -/
def f1 : Bytes := frameOf 0x20 (List.replicate 320 0x41) (List.replicate 40 0)

/-- `F2`. -/
def f2 : Bytes :=
  frameOf 0xA5 ([0x28, 0x25, 0x2C, 0x2C, 0x2F] ++ List.replicate 35 0 ++ [0x07, 0x3C] ++ List.replicate 38 0x41 ++ List.replicate 240 0)
    ((List.range 40).map fun c => BitVec.ofNat 8 (6 * c))

/-- Does an outcome go on to a state with this property? -/
def goesTo (o : Host.Outcome State Fault Refusal) (p : State → Bool) : Bool :=
  match o with
  | .next t => p t
  | .fault _ => false
  | .refused _ => false

/-- Is an outcome this refusal? -/
def refusedAs (o : Host.Outcome State Fault Refusal) (r : Refusal) : Bool :=
  match o with
  | .refused q => decide (q = r)
  | .next _ => false
  | .fault _ => false

/-- A line of 40 equal characters. -/
def line40 (c : Char) : Str := List.replicate 40 c

/-- Ten fields joined with T0's separator. -/
def tenFields (led row attr : Str) : Str := join ['#'] ([led] ++ List.replicate 8 row ++ [attr])

/-! ## WellFormed: an ill-formed term for each check -/

theorem test_exchange_too_long_is_ill_formed : ¬ (Instr.exchange 0x80 372).WellFormed := by decide
theorem test_short_response_is_ill_formed : ¬ (Instr.respDisplay [0xAA, 0xAA, 0xAA]).WellFormed := by decide
/-- R90, R104: no response on the wire is longer than 371 bytes. -/
theorem test_long_response_is_ill_formed : ¬ (Instr.respDisplay (f1 ++ [0])).WellFormed := by decide +kernel
theorem test_bad_mark_is_ill_formed :
    ¬ (Instr.respDisplay ([0xAA, 0xAB, 0xAA] ++ List.replicate 368 0)).WellFormed := by decide +kernel

/-! ## Decoding: words written out from R91, R93, R95, R96 -/

/-- R91 with c = 0x22, S10. -/
theorem test_decode_cmdframe : decode (.wire [0x55, 0x55, 0x55, 0x01, 0x22, 0x22]) = .ok (.cmdframe 0x22) := rfl
/-- R106, V-X1. -/
theorem test_decode_query : decodeTableWord 48 0x555555018080 = some .queryDisplay := by decide
/-- R93: the marker in bits 2967 to 2944, all other bits zero. -/
theorem test_decode_response :
    decodeTableWord 2968 (0xAAAAAA * 2 ^ 2944) = some (.respDisplay ([0xAA, 0xAA, 0xAA] ++ List.replicate 368 0)) := by
  decide +kernel
/-- The rows of R96, in the order of their codes. -/
theorem test_decode_setup : decode (.hostop 0b000 { pid := some ['A'] }) = .ok (.setup (some ['A'])) := rfl
theorem test_decode_exchange : decode (.hostop 0b001 { c := 0x80, n := 371 }) = .ok (.exchange 0x80 371) := rfl
theorem test_decode_poweron : decode (.hostop 0b010 {}) = .ok .poweron := rfl
theorem test_decode_poll : decode (.hostop 0b011 {}) = .ok .poll := rfl
theorem test_decode_getsnapshot : decode (.hostop 0b100 {}) = .ok .getsnapshot := rfl
theorem test_decode_decode : decode (.hostop 0b101 { raw := some [0xAA] }) = .ok (.decode (some [0xAA])) := rfl
theorem test_decode_parse : decode (.hostop 0b110 { s := ['x'] }) = .ok (.parse ['x']) := rfl
theorem test_decode_cmap : decode (.hostop 0b111 { b := 0x41 }) = .ok (.cmap 0x41) := rfl
/-- A wire frame that is none of the table's. -/
theorem test_decode_rejects : decode (.wire [0x55, 0x55, 0x55, 0x01, 0x80, 0x81]) = .error .trailerMismatch := rfl

/-- R90, R104: a marked frame of 372 bytes is no RESP_DISPLAY. -/
theorem test_decode_rejects_long_response : decode (.wire (f1 ++ [0])) = .error .longResponse := by decide +kernel

/-! ## Text: V-B1 to V-B8, V-T1 to V-T8, V-I1 to V-I8 -/

theorem test_bin8 :
    [bin8 0x00, bin8 0x01, bin8 0x20, bin8 0x80, bin8 0xA5, bin8 0x7F].map String.ofList =
      ["00000000", "00000001", "00100000", "10000000", "10100101", "01111111"] := by decide
theorem test_dec :
    [dec 0x00, dec 0x09, dec 0x0A, dec 0x63, dec 0x64, dec 0x7F, dec 0x80, dec 0xFF].map String.ofList =
      ["0", "9", "10", "99", "100", "127", "128", "255"] := by decide
theorem test_offsets :
    [glyphOffset 0 0, glyphOffset 0 39, glyphOffset 1 0, glyphOffset 3 5, glyphOffset 7 0, glyphOffset 7 39, attrOffset 0,
      attrOffset 39] = [9, 48, 49, 134, 289, 328, 329, 368] := by decide

/-! ## The test instance -/

/-- T0 meets the constraints of R8. -/
theorem test_t0_admissible : idle.cfg.Admissible := by decide

/-! ## One step of each operation -/

/-- V-X1. -/
theorem test_cmdframe_query :
    goesTo (exec (.cmdframe 0x80) idle) (fun t => t.txBytes == [0x55, 0x55, 0x55, 0x01, 0x80, 0x80]) = true := by decide
/-- V-X2: a zero byte keeps the canonical form. -/
theorem test_cmdframe_zero :
    goesTo (exec (.cmdframe 0x00) (started .host |> fun s => { s with linkBusy := false }))
      (fun t => t.txbuf == [(0, 0x55), (1, 0x55), (2, 0x55), (3, 0x01)]) = true := by decide
/-- V-S1. -/
theorem test_setup_accepted :
    goesTo (exec (.setup (some ['A'])) { idle with env := { configures := [true] } })
      (fun t => t.configured && t.dtr && !t.rts && t.out ==
        [.link (.configure ['A'] ⟨115200, 8, 1, .none, .none, 100, 100⟩ true), .link (.setControlLines true false),
         .result .setupOk]) = true := by decide
/-- V-S4: the lines are kept from before. -/
theorem test_setup_rejected :
    goesTo (exec (.setup (some ['B'])) { ready with env := { configures := [false] } })
      (fun t => !t.configured && t.dtr && !t.rts && t.portId == some ['B'] &&
        linkTrace t.out == [.configure ['B'] ⟨115200, 8, 1, .none, .none, 100, 100⟩ false]) = true := by decide
/-- V-E6. -/
theorem test_exchange_unconfigured :
    goesTo (exec (.exchange 0x80 371) idle)
      (fun t => t.out == [.result (.exchange none)] && t.nReg == 371 && t.cmdReg == 0x80 && !t.linkBusy && !t.rxPresent &&
        t.txBytes == [0x55, 0x55, 0x55, 0x01, 0x80, 0x80]) = true := by decide
/-- V-E8. -/
theorem test_exchange_too_long : refusedAs (exec (.exchange 0x80 372) ready) (.responseSizeExceedsBuffer 372) = true := by
  decide
/-- V-E2, its second step: no close after an open that answers false. -/
theorem test_open_false :
    goesTo (step { started .host with env := { opens := [false] } })
      (fun t => t.out == [.link (.openPort false), .result (.exchange none)] && !t.linkBusy && t.seq == .idle) = true := by
  decide
/-- R128, V-E10: the bytes read land from address 0 on. -/
theorem test_read_stores :
    goesTo (step { reading with env := { reads := [some [0x01, 0x02]] }, rxbuf := [(1, 0xFF), (2, 0x07)] })
      (fun t => t.rxbuf == [(0, 0x01), (1, 0x02), (2, 0x07)] && t.xOk && t.seq == .xClose && !t.rxPresent) = true := by decide
/-- V-W5. -/
theorem test_poweron_before_setup : refusedAs (exec .poweron idle) .poweronBeforeSetup = true := by decide
/-- V-W2, its last step: draw false, the lines stay active. -/
theorem test_hold_interrupted :
    goesTo (step { holding with env := { sleeps := [.interrupted], restores := [false] } })
      (fun t => !t.dtr && t.rts && t.pwrRep == 0 && t.seq == .idle && t.out ==
        [.sleep 1000 .interrupted, .report .interrupted (.powerOnAborted 1), .result .poweronInterrupted]) = true := by decide
/-- S2, the commit step of a POLL whose link did not open. -/
theorem test_poll_commits_error_text :
    goesTo (step { ready with pollBusy := true, pollResult := some none })
      (fun t => t.lastDecoded == ready.cfg.msgNc && !t.pollBusy && t.snapshot == blank &&
        t.out == [.report .parseWarning .notDisplayString, .push blank, .result .void]) = true := by decide
/-- R202: POLL's exchange is the display query. -/
theorem test_poll_starts :
    goesTo (exec .poll ready) (fun t => t.pollBusy && t.linkBusy && t.nReg == 371 && t.cmdReg == 0x80 && t.seq == .xOpen) =
      true := by decide
/-- R214. -/
theorem test_getsnapshot : goesTo (exec .getsnapshot (started .host)) (fun t => t.out == [.result (.snapshot blank)]) = true := by
  decide
/-- V-D1 to V-D7. -/
theorem test_decode_errors :
    [none, some [], some [0xAA, 0x00], some [0xAA, 0xAA, 0xAA], some [0xAA, 0xAA, 0xAB], some (List.replicate 10 0x55)].map
        (decodeResponse idle.cfg) =
      [.err .notConnected, .err .malformed, .err .malformed, .err .malformed, .err .communicationError,
       .err .communicationError] := by decide
/-- V-D10, S1. -/
theorem test_resp_display_scenario :
    goesTo (exec (.respDisplay f1) idle) (fun t => t.out ==
      [.result (.decode (.ok (tenFields ['0', '0', '1', '0', '0', '0', '0', '0'] (line40 'a')
        (join [';'] (List.replicate 40 ['0'])))))]) = true := by decide +kernel
/-- V-D12 with V-P9, S6: the led bits and the first row of F2 come back. -/
theorem test_round_trip :
    (match decodeResponse idle.cfg (some f2) with
      | .ok k => goesTo (exec (.parse k) idle) fun t =>
          t.snapshot.led == #v[true, false, true, false, false, true, false, true] &&
          (t.snapshot.line[0]).toList == ['H', 'E', 'L', 'L', 'O'] ++ List.replicate 35 ' ' &&
          (t.snapshot.line[1]).toList == ['\\', '\\'] ++ List.replicate 38 'a' &&
          t.snapshot.attr.take 4 == [['0'], ['6'], ['1', '2'], ['1', '8']]
      | .err _ => false) = true := by decide +kernel
/-- V-P6: nine fields. -/
theorem test_parse_nine_fields :
    goesTo (exec (.parse (join ['#'] (['0', '0', '1', '0', '0', '0', '0', '0'] :: List.replicate 8 (line40 'a')))) idle)
      (fun t => t.snapshot == blank && t.out == [.report .parseWarning .notDisplayString, .result .void]) = true := by
  decide +kernel
/-- V-P14: no '1' in the led field, lines of 45 characters, one empty token. -/
theorem test_parse_long_lines :
    goesTo (exec (.parse (tenFields ['a', 'b', 'c', 'd', 'e', 'f', 'g', 'h'] (List.replicate 45 'b') [])) idle)
      (fun t => t.snapshot == ⟨Vector.replicate 8 false, Vector.replicate 8 (Vector.replicate 40 'b'), [[]]⟩ &&
        t.out == [.result .void]) = true := by decide +kernel
/-- V-C1, V-C3 to V-C8, V-C11. -/
theorem test_cmap_entries :
    [0x21, 0x41, 0x07, 0x3C, 0x5F, 0x20, 0x3A, 0x5A, 0x00, 0x60, 0x9C].map idle.cfg.glyph =
      [['A'], ['a'], ['\\'], ['\\'], [], ['@'], ['Z'], ['z'], [' '], [' '], [' ']] := by decide
/-- V-C5 as an operation. -/
theorem test_cmap_bracket :
    goesTo (exec (.cmap 0x5B) idle) (fun t => t.out == [.result (.glyph [Char.ofNat 0x7B, ' '])]) = true := by decide
/-- R103: an invalid frame is answered, by its first three bytes or by its length; here a broken trailer, and a marked frame
that is too short. -/
theorem test_invalid_frames_are_answered :
    goesTo (step (idle.present (.wire [0x55, 0x55, 0x55, 0x01, 0x80, 0x81])))
      (fun t => t.out == [.result (.decode (.err .communicationError))]) = true ∧
    goesTo (step (idle.present (.wire [0xAA, 0xAA, 0xAA, 0x00])))
      (fun t => t.out == [.result (.decode (.err .malformed))]) = true := by decide
/-- R36: POLL's commit step is taken in `IDLE`; R74: no grant while the lock is set. -/
theorem test_commit_waits_for_idle :
    { started .host with pollBusy := true, pollResult := some none, held := [.frame 1] }.moves = [.phase] ∧
    { ready with pollBusy := true, pollResult := some none, held := [.frame 1] }.moves = [.commit none, .grant 0] := by
  decide
/-- R251: a PARSE waits for nothing, here during an EXCHANGE and during a POWERON. -/
theorem test_parse_never_waits :
    [started .host, holding].map (fun s => goesTo (exec (.parse ['a', '#', 'b']) s) fun t =>
      t.held == [] && t.seq == s.seq && t.out == [.report .parseWarning .notDisplayString, .result .void]) = [true, true] := by
  decide
/-- R261, R96: the first instruction after reset. -/
theorem test_first_step_after_reset : step (State.reset.withFetchWord 8 4) = exec .getsnapshot State.reset := rfl

/-! ## States that meet the hypotheses of the statements -/

theorem test_witness_DecodeOfEncodeGivesBack :
    (Instr.cmdframe 0x80).WellFormed ∧ (Instr.cmdframe 0x7F).WellFormed ∧ (Instr.exchange 0xFF 371).WellFormed ∧
    (Instr.exchange 0 0).WellFormed ∧ (Instr.respDisplay f1).WellFormed ∧ (Instr.setup none).WellFormed := by decide +kernel

theorem test_witness_WireFramesHaveOneMeaning :
    decode (.wire [0x55, 0x55, 0x55, 0x01, 0xFF, 0xFF]) = .ok (.cmdframe 0xFF) ∧
    decode (.wire [0x55, 0x55, 0x55, 0x01, 0x80, 0x80]) = .ok .queryDisplay := ⟨rfl, rfl⟩

theorem test_witness_ResponseFramePattern : f1.length = 371 ∧ f1.take 3 = [0xAA, 0xAA, 0xAA] := by decide +kernel

theorem test_witness_SplitAndJoinAgree :
    split ['a', '#', '#', 'b'] ['#'] = [['a'], [], ['b']] ∧
    ((['#', '+'] : Str) ≠ [] ∧ ([['a'], [], ['b', 'c']] : List Str) ≠ [] ∧
      ([['a'], [], ['b', 'c']] : List Str).all (fun f => f.all fun c => !(['#', '+'] : Str).contains c) = true) := by decide

/-- V-D17: the bytes at offsets 3 and 370 differ. -/
theorem test_witness_DecodeIgnoresOtherBytes :
    371 ≤ f1.length ∧ 371 ≤ ((f1.set 3 9).set 370 7).length ∧ f1 ≠ (f1.set 3 9).set 370 7 ∧
    (∀ i, i < 3 ∨ (8 ≤ i ∧ i ≤ 368) → f1[i]? = ((f1.set 3 9).set 370 7)[i]?) ∧ 368 ≤ (f1.drop 3).length := by
  refine ⟨by decide +kernel, by decide +kernel, by decide +kernel, fun i h => ?_, by decide +kernel⟩
  rw [List.getElem?_set_ne (by omega), List.getElem?_set_ne (by omega)]

/-- No glyph of the test instance is longer than two characters or holds its separator. -/
theorem test_t0_glyphs : ∀ b : Byte, (idle.cfg.glyph b).length ≤ 2 ∧ '#' ∉ idle.cfg.glyph b := by decide +kernel

/-- Every glyph byte of `f1` is 0x41. -/
theorem test_f1_glyphs : ∀ i < 320, f1.getD (9 + i) 0 = 0x41 := by
  intro i h
  have key : ∀ pre post : Bytes, pre.length = 9 → (pre ++ (List.replicate 320 0x41 ++ post)).getD (9 + i) 0 = 0x41 := by
    intro pre post hp
    rw [List.getD_eq_getElem?_getD, List.getElem?_append_right (by omega), hp, Nat.add_sub_cancel_left,
      List.getElem?_append_left (by rw [List.length_replicate]; exact h), List.getElem?_replicate_of_lt h]
    rfl
  have := key [0xAA, 0xAA, 0xAA, 0, 0, 0, 0, 0, 0x20] (List.replicate 40 0 ++ [0, 0]) rfl
  simpa only [f1, frameOf, List.append_assoc] using this

/-- `f1` meets the premise of the exact length too. -/
theorem test_witness_CanonicalStringLengths :
    371 ≤ f1.length ∧ (∀ b, (idle.cfg.glyph b).length ≤ 2) ∧
    ∀ c < 40, (idle.cfg.glyph (f1.getD (9 + 40 * 3 + c) 0)).length = 1 := by
  refine ⟨by decide +kernel, fun b => (test_t0_glyphs b).1, fun c h => ?_⟩
  rw [show 9 + 40 * 3 + c = 9 + (120 + c) by omega, test_f1_glyphs _ (by omega)]
  decide

theorem test_witness_RespDisplayCompletes : (Instr.respDisplay f1).WellFormed := by decide +kernel

theorem test_witness_CmapCompletes :
    idle.cfg.EntriesOk ∧ idle.cfg.glyphs.lookup 0x00 = none ∧ idle.cfg.glyphs.lookup 0x5F = some [] := by decide

theorem test_witness_DefaultTableEntries :
    (0x20 : Byte) ≤ 0x5E ∧ (0x5E : Byte) ≤ 0x5F ∧ (0x80 : Byte) ∈ highKeys ∧ (0x60 : Byte) ∉ highKeys ∧
    (0x1F : Byte) < 0x20 ∧ (0x5F : Byte) < 0x60 := by decide

theorem test_witness_ParseIsSilentOnPlaceholder :
    (['x'] : Str).length ≤ 1 ∧ ([] : Str).length ≤ 1 ∧ idle.cfg.TextsOk := by decide

/-- V-P5 and V-P6. -/
theorem test_witness_ParseRejectsStructure :
    2 ≤ (tenFields idle.cfg.errToken (line40 'a') ['0']).length ∧
    (split (tenFields idle.cfg.errToken (line40 'a') ['0']) idle.cfg.sep).head? = some idle.cfg.errToken ∧
    2 ≤ (['a', '#', 'b'] : Str).length ∧ (split ['a', '#', 'b'] idle.cfg.sep).length < 10 := by decide +kernel

theorem test_witness_ErrorTextsAreRejected :
    idle.cfg.TextsOk ∧ idle.cfg.msgMalf ∈ [idle.cfg.msgNc, idle.cfg.msgComm, idle.cfg.msgMalf] := by decide

/-- V-P7 for the led field; a line of 39 characters in field 1 and in field 8 for the lines. -/
theorem test_witness_ParseRejectsShortFields :
    2 ≤ (tenFields ['0', '0', '1', '0', '0', '0', '0'] (line40 'a') ['0']).length ∧
    (fun f : List Str => 10 ≤ f.length ∧ f.getD 0 [] ≠ idle.cfg.errToken ∧ (f.getD 0 []).length < 8)
      (split (tenFields ['0', '0', '1', '0', '0', '0', '0'] (line40 'a') ['0']) idle.cfg.sep) ∧
    (fun f : List Str => 10 ≤ f.length ∧ f.getD 0 [] ≠ idle.cfg.errToken ∧ 8 ≤ (f.getD 0 []).length ∧ (f.getD 1 []).length < 40)
      (split (tenFields (bin8 0x20) (List.replicate 39 'a') ['0']) idle.cfg.sep) ∧
    (fun f : List Str => 10 ≤ f.length ∧ f.getD 0 [] ≠ idle.cfg.errToken ∧ 8 ≤ (f.getD 0 []).length ∧ (f.getD 8 []).length < 40 ∧
        ((f.drop 1).take 7).all (fun x => 40 ≤ x.length) = true)
      (split (join ['#'] ([bin8 0x20] ++ List.replicate 7 (line40 'a') ++ [[], []])) idle.cfg.sep) := by
  decide +kernel

theorem test_witness_ParseCommitsFields :
    2 ≤ (tenFields (bin8 0x20) (line40 'a') ['0']).length ∧
    (fun f : List Str => 10 ≤ f.length ∧ f.getD 0 [] ≠ idle.cfg.errToken ∧ 8 ≤ (f.getD 0 []).length ∧
        ((f.drop 1).take 8).all (fun x => 40 ≤ x.length) = true)
      (split (tenFields (bin8 0x20) (line40 'a') ['0']) idle.cfg.sep) := by decide +kernel

theorem test_witness_ParseOfDecodeRoundTrip :
    371 ≤ f1.length ∧ f1.take 3 = [0xAA, 0xAA, 0xAA] ∧
    (∀ i < 320, (idle.cfg.glyph (f1.getD (9 + i) 0)).length = 1) ∧
    (∀ c ∈ idle.cfg.sep, c ≠ ';' ∧ c ∉ digits ∧ ∀ b, c ∉ idle.cfg.glyph b) ∧
    bin8 (f1.getD 8 0) ≠ idle.cfg.errToken := by
  refine ⟨by decide +kernel, by decide +kernel, fun i h => ?_, fun c h => ?_, by decide +kernel⟩
  · rw [test_f1_glyphs i h]
    decide
  · obtain rfl : c = '#' := by simpa [Params.sep, idle, Params.t0Witness, Params.t0] using h
    exact ⟨by decide, by decide, fun b => (test_t0_glyphs b).2⟩

/-- Each of the three blocking conditions alone, and none of them. -/
theorem test_witness_SetupOutcomes :
    (started .host).linkBusy = true ∧ { idle with pollBusy := true }.pollBusy = true ∧ holding.seq ≠ .idle ∧
    (idle.linkBusy = false ∧ idle.pollBusy = false ∧ idle.seq = .idle) := by decide

theorem test_witness_CmdframeBuildsFrame : idle.linkBusy = false ∧ holding.linkBusy = false := by decide

theorem test_witness_ExchangeIsGranted :
    371 ≤ 371 ∧ 0 ≤ 371 ∧ ready.linkBusy = false ∧ ready.seq.isPower = false ∧ ready.configured = true := by decide

theorem test_witness_QueryDisplayIsGranted :
    ready.linkBusy = false ∧ ready.seq.isPower = false ∧ ready.configured = true := by decide

theorem test_witness_ExchangeUnconfiguredReturnsNone :
    371 ≤ 371 ∧ idle.linkBusy = false ∧ idle.seq.isPower = false ∧ idle.configured = false := by decide

theorem test_witness_RequestsWaitForLock :
    371 ≤ 371 ∧ (started .poll).linkBusy = true ∧ ready.linkBusy = false ∧
    goesTo (exec (.exchange 0x22 0) ready) (fun t => t.held == []) = true := by decide

theorem test_witness_HeldRequestIsGranted :
    (fun s : State => s.linkBusy = false ∧ s.pollBusy = true ∧ s.held[0]? = some (.exchange .host 0x22 371) ∧
        s.held[1]? = some (.exchange .poll 0x80 371) ∧ s.held[2]? = some (.frame 0x01))
      { ready with pollBusy := true, held := [.exchange .host 0x22 371, .exchange .poll 0x80 371, .frame 0x01] } ∧
    (fun s : State => s.presented = none ∧ s.linkBusy = false ∧ s.seq = .idle ∧ s.pollResult = none ∧
        s.held = [.exchange .host 0x22 371]) { ready with held := [.exchange .host 0x22 371] } ∧
    (fun s : State => s.presented = none ∧ s.linkBusy = false ∧ s.seq = .idle ∧ s.pollResult = none ∧
        2 ≤ s.held.length ∧ 1 < s.held.length ∧ s.env.picks.head? = some 1)
      { ready with held := [.frame 1, .frame 2], env := { picks := [1] } } := by decide

/-- R74, R129: a held request is granted by a step that presents nothing. -/
theorem test_step_grants_held :
    goesTo (step { ready with held := [.exchange .host 0x22 5] })
      (fun t => t.linkBusy && t.seq == .xOpen && t.cmdReg == 0x22 && t.nReg == 5 && t.held == []) = true := by decide

/-- Every answer, for each owner. -/
theorem test_witness_OpenPhase :
    (started .host).seq = .xOpen ∧ { started .host with env := { opens := [true] } }.openAnswer = true ∧
    (fun s : State => s.openAnswer = false ∧ s.xOwner = .host) { started .host with env := { opens := [false] } } ∧
    (fun s : State => s.seq = .xOpen ∧ s.openAnswer = false ∧ s.xOwner = .poll)
      { started .poll with env := { opens := [false] } } := by decide

theorem test_witness_WritePhase :
    (fun s : State => s.seq = .xWrite ∧ s.writeAnswer = .accepted)
      { started .host with seq := .xWrite, env := { writes := [.accepted] } } ∧
    (fun s : State => s.seq = .xWrite ∧ s.writeAnswer ≠ .accepted)
      { started .host with seq := .xWrite, env := { writes := [.rejected] } } ∧
    (fun s : State => s.seq = .xWrite ∧ s.writeAnswer ≠ .accepted)
      { started .host with seq := .xWrite, env := { writes := [.err] } } := by decide

theorem test_witness_ReadPhase :
    (fun s : State => s.seq = .xRead ∧ s.nReg ≤ 371 ∧ s.readAnswer s.nReg = none) { reading with env := { reads := [none] } } ∧
    (fun s : State => s.nReg = 0 ∧ s.readAnswer s.nReg = some []) { reading with nReg := 0 } ∧
    (fun s : State => s.readAnswer s.nReg = some [1, 2] ∧ [(1 : Byte), 2].length = s.nReg)
      { reading with env := { reads := [some [1, 2]] } } := by decide

theorem test_witness_ClosePhase :
    (fun s : State => s.seq = .xClose ∧ s.rxLen ≤ 371 ∧ s.xOk = true ∧ s.xOwner = .host)
      { started .host with seq := .xClose, xOk := true, rxLen := 371 } ∧
    (fun s : State => s.seq = .xClose ∧ s.rxLen ≤ 371 ∧ s.xOk = false ∧ s.xOwner = .poll)
      { started .poll with seq := .xClose } := by decide

/-- The environment of V-E10: every call succeeds. -/
def willing (r : Request) (bytes : Bytes) : State :=
  { ready with hostIn := [some r], env := { opens := [true], writes := [.accepted], reads := [some bytes] } }

theorem test_witness_ExchangeRunsToItsResult :
    (fun s : State => 2 ≤ 371 ∧ [(1 : Byte), 2].length = 2 ∧ s.linkBusy = false ∧ s.seq = .idle ∧ s.configured = true ∧
        s.held = [] ∧ s.pollResult = none ∧ s.hostIn = [some (.hostop 1 { c := 0x22, n := 2 })] ∧ s.openAnswer = true ∧
        s.writeAnswer = .accepted ∧ s.env.opens ≠ [] ∧ s.env.writes ≠ [] ∧ s.env.reads.head? = some (some [1, 2]))
      (willing (.hostop 1 { c := 0x22, n := 2 }) [1, 2]) := by decide

theorem test_witness_PoweronStarts : ready.configured = true ∧ ready.linkBusy = false ∧ ready.seq = .idle := by decide

theorem test_witness_PoweronPhases :
    (fun s : State => s.seq = .pActive) { ready with seq := .pActive } ∧
    (fun s : State => s.seq = .pHold ∧ s.sleepAnswer = .elapsed) { holding with env := { sleeps := [.elapsed] } } ∧
    (fun s : State => s.seq = .pRestore ∧ s.pwrRep < 2) { holding with seq := .pRestore, pwrRep := 1 } ∧
    (fun s : State => s.seq = .pRestore ∧ 2 ≤ s.pwrRep) { holding with seq := .pRestore, pwrRep := 2 } := by decide

theorem test_witness_InterruptedHold :
    (fun s : State => s.seq = .pHold ∧ s.sleepAnswer = .interrupted ∧ s.env.restores.head? = some true)
      { holding with env := { sleeps := [.interrupted], restores := [true] } } ∧
    (fun s : State => s.seq = .pHold ∧ s.sleepAnswer = .interrupted ∧ s.env.restores.head? = some false)
      { holding with env := { sleeps := [.interrupted], restores := [false] } } := by decide

theorem test_witness_PoweronRunsThreeRepetitions :
    (fun s : State => s.configured = true ∧ s.linkBusy = false ∧ s.seq = .idle ∧ s.held = [] ∧ s.pollResult = none ∧
        s.hostIn = [some (.hostop 2 {})] ∧ s.env.sleeps.take 3 = [.elapsed, .elapsed, .elapsed])
      { ready with hostIn := [some (.hostop 2 {})], env := { sleeps := [.elapsed, .elapsed, .elapsed] } } := by decide

theorem test_witness_PollStarts :
    ready.pollBusy = false ∧ (started .host).pollBusy = false ∧ (started .host).linkBusy = true ∧ ready.linkBusy = false ∧
    ready.seq.isPower = false ∧ ready.configured = true ∧ idle.configured = false := by decide

/-- The error text of an absent response, already stored. -/
theorem test_witness_CommitWithoutChange :
    (fun s : State => decodeResponse s.cfg none = .err .notConnected ∧ s.cfg.msgNc = s.lastDecoded)
      { ready with lastDecoded := ready.cfg.msgNc } := by decide

theorem test_witness_CommitWithChange :
    canonOf ready.cfg none = ready.cfg.msgNc ∧ ready.cfg.msgNc ≠ ready.lastDecoded := by decide

/-- The second commit is one a run takes: another POLL has come as far as its commit step. -/
theorem test_witness_SecondCommitPushesNothing :
    ∃ t t' u, runMove (.commit none) { ready with pollBusy := true, pollResult := some none } = .next t ∧
      t' = { t with pollBusy := true, pollResult := some none } ∧ t'.cfg = t.cfg ∧ t'.lastDecoded = t.lastDecoded ∧
      .commit none ∈ t'.moves ∧ runMove (.commit none) t' = .next u :=
  ⟨_, _, _, rfl, rfl, rfl, rfl, by decide, rfl⟩

theorem test_witness_FirstPollAlwaysPushes : ready.cfg.TextsOk ∧ ready.lastDecoded = [' '] := by decide

theorem test_witness_PollRunsToItsCommit :
    (fun s : State => f1.length = 371 ∧ s.linkBusy = false ∧ s.seq = .idle ∧ s.configured = true ∧ s.pollBusy = false ∧
        s.held = [] ∧ s.pollResult = none ∧ s.hostIn = [some (.hostop 3 {})] ∧ s.openAnswer = true ∧
        s.writeAnswer = .accepted ∧ s.env.opens ≠ [] ∧ s.env.writes ≠ [] ∧ s.env.reads.head? = some (some f1))
      (willing (.hostop 3 {}) f1) := by decide +kernel

theorem test_witness_RefusedSituations :
    371 < 372 ∧ holding.linkBusy = false ∧ holding.seq.isPower = true ∧ holding.pollBusy = false ∧ holding.configured = true ∧
    holding.seq ≠ .idle ∧ (started .host).linkBusy = true ∧ idle.configured = false ∧
    { idle with pollBusy := true }.pollBusy = true ∧
    (fun s : State => s.seq = .xRead ∧ s.readAnswer s.nReg = some [1] ∧ [(1 : Byte)].length ≠ s.nReg)
      { reading with env := { reads := [some [1]] } } := by decide

theorem test_witness_StepRunsDecodedInstruction :
    (idle.present (.hostop 4 {})).hostIn.head? = some (some (.hostop 4 {})) ∧ decode (.hostop 4 {}) = .ok .getsnapshot ∧
    (idle.present (.wire [])).hostIn.head? = some (some (.wire [])) ∧ decode (.wire []) = .error .unknownFrame ∧
    ((started .host).hostIn.head? = none ∧ (started .host).linkBusy = true ∧ (started .host).seq ≠ .idle) ∧
    { idle with hostIn := [none] }.hostIn.head? = some none ∧ decodeTableWord 8 7 = some (.cmap 0) :=
  ⟨rfl, rfl, rfl, rfl, by decide, rfl, rfl⟩

/-- S2 and R135: a POLL whose open failed before its commit step, a hold that is interrupted, each with no caller held; the
same with callers held, where the choice names the commit step or a later move; and a state with nothing to do. -/
theorem test_witness_StepTakesOpenMove :
    (fun s : State => s.presented = none ∧ s.seq = .idle ∧ s.pollResult = some none ∧ s.held = [])
      { ready with pollBusy := true, pollResult := some none } ∧
    (fun s : State => s.presented = none ∧ s.seq ≠ .idle ∧ s.seq.isPower = true ∧ s.sleepAnswer = .interrupted ∧ s.held = [])
      { holding with env := { sleeps := [.interrupted] } } ∧
    (fun s : State => s.presented = none ∧ 2 ≤ s.moves.length ∧ s.moves[0]? = some (.commit none) ∧
        s.env.picks.head? = some 0)
      { ready with pollBusy := true, pollResult := some none, held := [.frame 1], env := { picks := [0] } } ∧
    (fun s : State => s.presented = none ∧ 2 ≤ s.moves.length ∧ s.moves[1]? = some (.grant 0) ∧ s.env.picks.head? = some 1)
      { holding with held := [.frame 1], env := { picks := [1] } } ∧
    (fun s : State => s.presented = none ∧ s.moves = []) ready := by decide

/-- The invariant holds in a state in the middle of an exchange, with the lock set. -/
theorem test_started_inv : (started .host).Inv := by
  constructor
  case heldInRange => intro _ _ _ h; exact nomatch h
  all_goals decide

/-- The invariant holds after SETUP. -/
theorem test_ready_inv : ready.Inv := by
  constructor
  case heldInRange => intro _ _ _ h; exact nomatch h
  all_goals decide

theorem test_witness_StepKeepsInvariant : ready.Inv ∧ ∃ t, step ready = .next t := ⟨test_ready_inv, _, rfl⟩

theorem test_witness_RunsKeepLinkOrder : ready.Inv ∧ ∃ t, Sys2Proof.core.run 2 ready = .next t :=
  ⟨test_ready_inv, _, rfl⟩

theorem test_witness_OnlyCommandFramesAreWritten :
    ready.Inv ∧ ready.SendsFrames ∧ ∃ t, step ready = .next t :=
  ⟨test_ready_inv, fun _ _ h => (nomatch h), _, rfl⟩

theorem test_witness_StepNeverFaults : (started .host).Inv := test_started_inv

theorem test_witness_LockIsAlwaysReleased :
    (started .host).Inv ∧ (started .host).linkBusy = true ∧ (started .host).hostIn = [] := ⟨test_started_inv, rfl, rfl⟩

/-- A POLL whose link does not open. -/
def polling : State := { started .poll with pollBusy := true, env := { opens := [false] } }

/-- The state in which its exchange has returned. -/
def returned : State :=
  { ready with cmdReg := 0x80, nReg := 371, xOwner := .poll, pollBusy := true, pollResult := some none, draws := 1,
               txbuf := (started .poll).txbuf, out := [.link (.openPort false)] }

/-- The state in which that POLL has ended. -/
def ended : State := returned.commitPoll none

/-- Its run: the open fails, the commit step follows, then the block waits. -/
def pollingRun : Nat → State
  | 0 => polling
  | 1 => returned
  | _ + 2 => ended

theorem test_polling_inv : polling.Inv := by
  constructor
  case heldInRange => intro _ _ _ h; exact nomatch h
  all_goals decide

/-- An unending, weakly fair execution with a POLL in progress, whose exchange holds the lock. -/
theorem test_witness_fair_execution :
    IsExecution pollingRun ∧ (pollingRun 0).Inv ∧ WeaklyFair pollingRun ∧ (pollingRun 0).linkBusy = true ∧
      (pollingRun 0).pollBusy = true := by
  refine ⟨fun k => ?_, test_polling_inv, ⟨fun k => ⟨k + 2, by omega, rfl⟩, fun k w h => ?_, fun k _ => ⟨k + 2, by omega, rfl⟩⟩,
    rfl, rfl⟩
  · match k with
    | 0 => exact ⟨returned, [], {}, rfl, rfl⟩
    | 1 => exact ⟨ended, [], {}, rfl, rfl⟩
    | k + 2 => exact ⟨ended, [], {}, rfl, rfl⟩
  · match k, h with
    | 0, h => exact nomatch h
    | 1, h => exact nomatch h
    | k + 2, h => exact nomatch h

theorem test_witness_ConstantsAreNeverWritten : ∃ t, step (willing (.hostop 4 {}) []) = .next t := ⟨_, rfl⟩

theorem test_witness_PushExactlyOnChange :
    ∃ t, step { ready with pollBusy := true, pollResult := some none } = .next t := ⟨_, rfl⟩

/-- A host's PARSE of a display string writes the snapshot, here during an EXCHANGE; so does a POLL's commit step. -/
theorem test_witness_SnapshotWrittenOnlyByParse :
    goesTo (step ((started .host).present (.hostop 6 { s := tenFields (bin8 0x20) (line40 'a') [] })))
      (fun t => t.snapshot != (started .host).snapshot) = true ∧
    goesTo (step { ready with pollBusy := true, pollResult := some (some f1) })
      (fun t => t.snapshot != ready.snapshot && t.lastDecoded != ready.lastDecoded) = true := by decide +kernel

theorem test_witness_OnlySetupConfigures :
    goesTo (step ({ idle with env := { configures := [true] } }.present (.hostop 0 { pid := some ['A'] })))
      (fun t => t.portId != idle.portId && t.configured != idle.configured) = true := by decide

/-- A phase that drives the lines, a SETUP that does, and a step that leaves them. -/
theorem test_witness_LinesChangeByOneCall :
    goesTo (step { ready with seq := .pActive }) (fun t => (t.dtr, t.rts) != (ready.dtr, ready.rts)) = true ∧
    goesTo (step ({ idle with env := { configures := [true] } }.present (.hostop 0 { pid := some ['A'] })))
      (fun t => t.dtr != idle.dtr) = true ∧
    goesTo (step { started .host with env := { opens := [true] } }) (fun t => t.dtr == ready.dtr && t.rts == ready.rts) = true := by decide

end Sys2Proof.Tests
end

section
/-!
SUPPORT. Proofs of the statements of spec/00_scope.md: the decimal numeral of a byte, split and join, and what a step does.
-/

namespace Sys2Proof.Machine

/-! ## The decimal numeral of a byte -/

/-- A digit below ten is a decimal digit, its character has that value, and only the digit 0 is '0'. -/
theorem digit_spec {n : Nat} (h : n < 10) :
    digit n ∈ digits ∧ (digit n).toNat - 48 = n ∧ (digit n = '0' → n = 0) := by
  revert n
  decide

theorem dec_of_lt_ten {b : Byte} (h : b.toNat < 10) : dec b = [digit b.toNat] := by simp [dec, h]

theorem dec_of_lt_hundred {b : Byte} (h : 10 ≤ b.toNat) (h' : b.toNat < 100) :
    dec b = [digit (b.toNat / 10), digit (b.toNat % 10)] := by
  simp [dec, h', Nat.not_lt.mpr h]

theorem dec_of_ge_hundred {b : Byte} (h : 100 ≤ b.toNat) :
    dec b = [digit (b.toNat / 100), digit (b.toNat / 10 % 10), digit (b.toNat % 10)] := by
  simp [dec, Nat.not_lt.mpr h, show ¬ b.toNat < 10 by omega]

/-- Settles O8, by the number of digits: each digit reads back as its value, and of two or three the first is not 0. -/
theorem decimalNumeralOfByte : Obligations.DecimalNumeralOfByte := by
  intro b
  have hb : b.toNat < 256 := b.isLt
  obtain ⟨hmem, hval, -⟩ := digit_spec (n := b.toNat % 10) (by omega)
  rcases Nat.lt_or_ge b.toNat 10 with h10 | h10
  · rw [Nat.mod_eq_of_lt h10] at hmem hval
    rw [dec_of_lt_ten h10]
    simp [hmem, hval]
  rcases Nat.lt_or_ge b.toNat 100 with h100 | h100
  · obtain ⟨hmem', hval', hzero'⟩ := digit_spec (n := b.toNat / 10) (by omega)
    rw [dec_of_lt_hundred h10 h100]
    refine ⟨by simp [hmem, hmem'], by simp, by simp, fun h => ?_, ?_⟩
    · have := hzero' (Option.some.inj h)
      omega
    · simp only [List.foldl_cons, List.foldl_nil, hval, hval']
      omega
  · obtain ⟨hmem', hval', -⟩ := digit_spec (n := b.toNat / 10 % 10) (by omega)
    obtain ⟨hmem'', hval'', hzero''⟩ := digit_spec (n := b.toNat / 100) (by omega)
    rw [dec_of_ge_hundred h100]
    refine ⟨by simp [hmem, hmem', hmem''], by simp, by simp, fun h => ?_, ?_⟩
    · have := hzero'' (Option.some.inj h)
      omega
    · simp only [List.foldl_cons, List.foldl_nil, hval, hval', hval'']
      omega

/-! ## Split and join -/

theorem join_cons (t x : Str) {ps : List Str} (h : ps ≠ []) : join t (x :: ps) = x ++ t ++ join t ps := by
  cases ps with
  | nil => exact absurd rfl h
  | cons => rfl

theorem join_consHead (t : Str) (c : Char) (ps : List Str) : join t (consHead c ps) = c :: join t ps := by
  match ps with
  | [] => rfl
  | [_] => rfl
  | _ :: _ :: _ => rfl

/-- A scan gives at least one piece. -/
theorem splitFrom_ne_nil (t s : Str) (skip : Nat) : splitFrom t s skip ≠ [] := by
  induction s, skip using splitFrom.induct t with
  | case1 => simp [splitFrom]
  | case2 c cs skip ih => exact ih
  | case3 c cs h => simp [splitFrom, h]
  | case4 c cs h => cases hp : splitFrom t cs 0 <;> simp [splitFrom, h, hp, consHead]

/-- Joining what a scan finds gives back what it scanned: all but the characters it passes over. -/
theorem join_splitFrom {t : Str} (ht : t ≠ []) (s : Str) (skip : Nat) : join t (splitFrom t s skip) = s.drop skip := by
  induction s, skip using splitFrom.induct t with
  | case1 => simp [splitFrom, join]
  | case2 c cs skip ih => exact ih
  | case3 c cs h ih =>
    obtain ⟨rest, hrest⟩ := List.isPrefixOf_iff_prefix.mp h
    have hdrop : cs.drop (t.length - 1) = rest := by
      have hlen : t.length = t.length - 1 + 1 := by have := List.length_pos_iff.mpr ht; omega
      rw [← List.drop_succ_cons (a := c), ← hlen, ← hrest, List.drop_left]
    rw [splitFrom, if_pos h, join_cons _ _ (splitFrom_ne_nil _ _ _), ih, hdrop]
    exact hrest
  | case4 c cs h ih => rw [splitFrom, if_neg h, join_consHead, ih]; rfl

/-- The characters still to be passed over add nothing to the pieces. -/
theorem splitFrom_length_append (t u r : Str) : splitFrom t (u ++ r) u.length = splitFrom t r 0 := by
  induction u with
  | nil => rfl
  | cons c u ih => exact ih

/-- A separator at the start ends an empty piece. -/
theorem split_sep_append {t : Str} (ht : t ≠ []) (r : Str) : split (t ++ r) t = [] :: split r t := by
  cases t with
  | nil => exact absurd rfl ht
  | cons c u =>
    have hpre : (c :: u).isPrefixOf (c :: (u ++ r)) = true := List.isPrefixOf_iff_prefix.mpr (List.prefix_append _ _)
    rw [split, List.cons_append, splitFrom, if_pos hpre]
    exact congrArg _ (splitFrom_length_append _ u r)

/-- A character that the separator does not hold belongs to the first piece. -/
theorem split_cons_of_notMem {t : Str} (ht : t ≠ []) {c : Char} (hc : c ∉ t) (s : Str) :
    split (c :: s) t = consHead c (split s t) := by
  cases t with
  | nil => exact absurd rfl ht
  | cons d u =>
    have hdc : d ≠ c := fun h => hc (h ▸ List.mem_cons_self)
    simp [split, splitFrom, List.isPrefixOf, hdc]

/-- A field without characters of the separator goes whole into the first piece. -/
theorem split_append_of_notMem {t : Str} (ht : t ≠ []) {f : Str} (hf : ∀ c ∈ f, c ∉ t) {s p : Str} {ps : List Str}
    (hs : split s t = p :: ps) : split (f ++ s) t = (f ++ p) :: ps := by
  induction f with
  | nil => exact hs
  | cons c f ih =>
    rw [List.forall_mem_cons] at hf
    rw [List.cons_append, split_cons_of_notMem ht hf.1, ih hf.2]
    rfl

/-- Splitting a join finds the joints and nothing else (R216, W2). -/
theorem split_join {t : Str} (ht : t ≠ []) {fields : List Str} (hne : fields ≠ [])
    (hf : ∀ f ∈ fields, ∀ c ∈ f, c ∉ t) : split (join t fields) t = fields := by
  induction fields with
  | nil => exact absurd rfl hne
  | cons f fs ih =>
    rw [List.forall_mem_cons] at hf
    cases fs with
    | nil => simpa [join] using split_append_of_notMem ht hf.1 (s := []) rfl
    | cons g fs =>
      have hrest : split (t ++ join t (g :: fs)) t = [] :: g :: fs := by
        rw [split_sep_append ht, ih (List.cons_ne_nil _ _) hf.2]
      rw [join_cons t f (List.cons_ne_nil _ _), List.append_assoc, split_append_of_notMem ht hf.1 hrest,
        List.append_nil]

/-- Settles O9: the scan loses no character, and a field that shares no character with the separator stays whole. -/
theorem splitAndJoinAgree : Obligations.SplitAndJoinAgree :=
  ⟨fun s _ ht => join_splitFrom ht s 0, fun _ _ ht hne hf => split_join ht hne hf⟩

/-! ## The step -/

theorem presented_eq_some {s : State} {r : Request} (h : s.hostIn.head? = some (some r)) : s.presented = some r := by
  simp [State.presented, h]

theorem presented_eq_none {s : State} (h : s.hostIn.head? = none ∨ s.hostIn.head? = some none) :
    s.presented = none := by
  rcases h with h | h <;> simp [State.presented, h]

/-- With a request presented a step is what that request does, once it is taken from the port. -/
theorem step_of_some {s : State} {r : Request} (h : s.presented = some r) : step s = runRequest r s.popPort := by
  simp only [step, h]

/-- With nothing presented and one move open a step is that move. -/
theorem step_of_single {s : State} {m : Move} (hp : s.presented = none) (hm : s.moves = [m]) :
    step s = runMove m s.popPort := by
  rw [step_of_none hp]
  exact advance_single hm

theorem Phase.isIdle_eq_true {q : Phase} : q.isIdle = true ↔ q = .idle := by
  cases q <;> simp [Phase.isIdle]

theorem Phase.isIdle_eq_false {q : Phase} : q.isIdle = false ↔ q ≠ .idle := by
  rw [← Bool.not_eq_true, ne_eq, Phase.isIdle_eq_true]

/-- Outside `IDLE` the phase is a move (R36). -/
theorem phase_mem_moves {s : State} (hq : s.seq ≠ .idle) : .phase ∈ s.moves := by
  simp [State.moves, Phase.isIdle_eq_true, hq]

/-- In `IDLE` the commit step of the POLL whose exchange has returned is a move (R36, R201). -/
theorem commit_mem_moves {s : State} {r : Option Bytes} (hr : s.pollResult = some r) (hq : s.seq = .idle) :
    .commit r ∈ s.moves := by
  simp [State.moves, State.commitMoves, Phase.isIdle_eq_true, hq, hr]

/-- The moves open are exactly the phase outside `IDLE`, the commit step in `IDLE`, and the grants with the lock free. -/
theorem mem_moves_iff {s : State} {m : Move} : m ∈ s.moves ↔
    (m = .phase ∧ s.seq ≠ .idle) ∨ (∃ r, m = .commit r ∧ s.pollResult = some r ∧ s.seq = .idle) ∨
    (∃ k, m = .grant k ∧ k < s.held.length ∧ s.linkBusy = false) := by
  constructor
  · intro h
    rcases mem_moves h with ⟨rfl, hq⟩ | ⟨r, rfl, hr, hq⟩ | ⟨k, w, rfl, hw, hb⟩
    · exact .inl ⟨rfl, Phase.isIdle_eq_false.mp hq⟩
    · exact .inr (.inl ⟨r, rfl, hr, Phase.isIdle_eq_true.mp hq⟩)
    · exact .inr (.inr ⟨k, rfl, (List.getElem?_eq_some_iff.mp hw).1, hb⟩)
  · rintro (⟨rfl, hq⟩ | ⟨r, rfl, hr, hq⟩ | ⟨k, rfl, hk, hb⟩)
    · exact phase_mem_moves hq
    · exact commit_mem_moves hr hq
    · exact grant_mem_moves hk hb

/-- A table word that is read as an instruction is the word of a request that decodes to it. -/
theorem decode_of_decodeTableWord {nbits w : Nat} {i : Instr} (h : decodeTableWord nbits w = some i) :
    decode (requestOfTableWord nbits w) = .ok i := by
  unfold decodeTableWord at h
  split at h
  · rw [← Option.some.inj h]; assumption
  · exact absurd h nofun

/-- Settles O48: the step's two branches with the laws of requests, of moves and of the block's own step. -/
theorem stepRunsDecodedInstruction : Obligations.StepRunsDecodedInstruction := by
  refine ⟨fun s r i h hd => ?decoded, fun s r why h hd => ?invalid, fun s h => step_of_none (presented_eq_none h),
    fun s h hb hq => ?exchange, fun s m => mem_moves_iff, fun s => rfl,
    fun s hp hq hh => step_of_single hp (moves_of_phase hq hh),
    fun s r hp hq hr hh => step_of_single hp (moves_of_commit hq hr hh), fun s m k hp h2 hm hk => ?picked,
    fun s hp hm => ?waits, fun s nbits w i h => ?tableWord⟩
  case decoded =>
    rw [step_of_some (presented_eq_some h)]
    exact runRequest_of_ok hd _
  case invalid =>
    rw [step_of_some (presented_eq_some h)]
    exact runRequest_of_error hd s.popPort
  case exchange =>
    exact step_of_single (presented_eq_none h) (moves_of_exchange hb (Phase.isIdle_eq_false.mpr hq))
  case picked =>
    rw [step_of_none hp]
    exact advance_picked (s := s.popPort) h2 hm hk
  case waits =>
    rw [step_of_none hp]
    exact advance_idle (s := s.popPort) hm
  case tableWord =>
    rw [State.withFetchWord, step_of_some (State.present_presented _ _), State.present_popPort]
    exact runRequest_of_ok (decode_of_decodeTableWord h) s

end Sys2Proof.Machine
end

section
/-!
SUPPORT. What each phase and each guarded instruction leaves when it goes on, said once.
-/

namespace Sys2Proof.Machine

variable {s t : State}

/-! ## What a phase leaves -/

theorem phaseOpen_next (h : phaseOpen s = .next t) :
    (s.openAnswer = true ∧ t = { s.afterOpen.linkCall (.openPort true) with portOpen := true, seq := .xWrite }) ∨
    (s.openAnswer = false ∧
      t = State.deliver { s.afterOpen.linkCall (.openPort false) with seq := .idle, linkBusy := false } s.xOwner none) := by
  unfold phaseOpen at h
  cases ha : s.openAnswer <;> simp only [ha, if_true, if_false, Bool.false_eq_true] at h <;> cases h
  · exact .inr ⟨rfl, rfl⟩
  · exact .inl ⟨rfl, rfl⟩

theorem phaseWrite_next (h : phaseWrite s = .next t) :
    (s.writeAnswer = .accepted ∧ t = { s.afterWrite.linkCall (.write s.txBytes .accepted) with seq := .xRead }) ∨
    (s.writeAnswer ≠ .accepted ∧
      t = { s.afterWrite.linkCall (.write s.txBytes s.writeAnswer) with seq := .xClose, xOk := false }) := by
  unfold phaseWrite at h
  cases ha : s.writeAnswer <;> simp only [ha] at h <;> cases h
  · exact .inl ⟨rfl, rfl⟩
  · exact .inr ⟨nofun, rfl⟩
  · exact .inr ⟨nofun, rfl⟩

theorem phaseRead_next (h : phaseRead s = .next t) :
    (s.readAnswer s.nReg = none ∧
      t = { (s.afterRead s.nReg).linkCall (.readExact s.nReg tReadMs none) with seq := .xClose, xOk := false }) ∨
    (∃ bytes, s.readAnswer s.nReg = some bytes ∧ bytes.length = s.nReg ∧ s.nReg ≤ rxCap ∧
      t = { (s.afterRead s.nReg).linkCall (.readExact s.nReg tReadMs (some bytes)) with
            rxbuf := s.rxbuf.writeBlock 0 bytes, rxLen := s.nReg, seq := .xClose, xOk := true }) := by
  unfold phaseRead at h
  cases ha : s.readAnswer s.nReg with
  | none =>
    simp only [ha] at h
    cases h
    exact .inl ⟨rfl, rfl⟩
  | some bytes =>
    simp only [ha] at h
    split at h
    · cases h
    split at h
    · cases h
    cases h
    exact .inr ⟨bytes, rfl, by omega, by omega, rfl⟩

theorem phaseClose_next (h : phaseClose s = .next t) :
    ∃ r, (s.xOk = true ∧ s.rxLen ≤ rxCap ∧
        t = State.deliver
          { s.linkCall .closePort with portOpen := false, seq := .idle, linkBusy := false, rxPresent := true } s.xOwner r) ∨
      (s.xOk = false ∧ r = none ∧
        t = State.deliver { s.linkCall .closePort with portOpen := false, seq := .idle, linkBusy := false } s.xOwner r) := by
  unfold phaseClose at h
  cases hok : s.xOk <;> simp only [hok, if_true, if_false, Bool.false_eq_true] at h
  · cases h
    exact ⟨none, .inr ⟨rfl, rfl, rfl⟩⟩
  · split at h
    · cases h
    cases h
    exact ⟨_, .inl ⟨rfl, by omega, rfl⟩⟩

theorem phaseHold_next (h : phaseHold s = .next t) :
    (s.sleepAnswer = .elapsed ∧ t = { s.afterSleep.emit (.sleep tHoldMs .elapsed) with seq := .pRestore }) ∨
    (s.sleepAnswer = .interrupted ∧ t = abortPoweron (s.afterSleep.emit (.sleep tHoldMs .interrupted))) := by
  unfold phaseHold at h
  cases ha : s.sleepAnswer <;> simp only [ha] at h <;> cases h
  · exact .inl ⟨rfl, rfl⟩
  · exact .inr ⟨rfl, rfl⟩

theorem phaseRestore_next (h : phaseRestore s = .next t) :
    (s.pwrRep + 1 < pwrReps ∧ t = { s.setLines idleLines with pwrRep := s.pwrRep + 1, seq := .pActive }) ∨
    (pwrReps ≤ s.pwrRep + 1 ∧
      t = State.emit { s.setLines idleLines with pwrRep := s.pwrRep + 1, seq := .idle } (.result .poweronDone)) := by
  unfold phaseRestore at h
  split at h
  · rename_i hlt
    cases h
    exact .inl ⟨hlt, rfl⟩
  · rename_i hge
    cases h
    exact .inr ⟨by omega, rfl⟩

/-! ## What an instruction leaves -/

/-- SETUP runs in `IDLE` only, and stores its operand whether it goes on or fails (R121). -/
theorem execSetup_next {pid : Option Str} (h : execSetup pid s = .next t) :
    s.seq = .idle ∧
    ((pid = none ∧ t = setupFails .noPortIdentifier { s with portId := none }) ∨
      ∃ port, pid = some port ∧ t = setupPort port { s with portId := some port }) := by
  unfold execSetup at h
  split at h
  · cases h
  · rename_i hblocked
    have hq : s.seq = .idle := by
      simp only [State.setupBlocked, Bool.or_eq_true, not_or, Bool.not_eq_true, Bool.not_eq_false'] at hblocked
      exact Phase.isIdle_eq_true.mp hblocked.2
    cases pid with
    | none => cases h; exact ⟨hq, .inl ⟨rfl, rfl⟩⟩
    | some port => cases h; exact ⟨hq, .inr ⟨port, rfl, rfl⟩⟩

/-- An accepted port is configured with its lines in the idle state; a rejected one is not, the lines as they were (R121). -/
theorem setupPort_cases (port : Str) (s : State) :
    setupPort port s =
      State.emit { (s.afterConfigure.linkCall (.configure port linkConfig true)).setLines idleLines with configured := true }
        (.result .setupOk) ∨
    setupPort port s = setupFails .linkRejected (s.afterConfigure.linkCall (.configure port linkConfig false)) := by
  unfold setupPort
  cases s.configureAnswer
  · exact .inr rfl
  · exact .inl rfl

theorem execPoll_next (h : execPoll s = .next t) :
    s.pollBusy = false ∧ requestExchange .poll cmdDisplay respSize { s with pollBusy := true } = .next t := by
  unfold execPoll at h
  split at h
  · cases h
  · rename_i hb
    exact ⟨by simpa using hb, h⟩

theorem execPoweron_next (h : execPoweron s = .next t) :
    s.configured = true ∧ s.seq = .idle ∧ t = { s with pwrRep := 0, seq := .pActive } := by
  unfold execPoweron at h
  split at h
  · cases h
  · rename_i hcfg
    split at h
    · cases h
    · rename_i hblocked
      cases h
      simp only [State.poweronBlocked, Bool.or_eq_true, not_or, Bool.not_eq_true, Bool.not_eq_false'] at hblocked hcfg
      exact ⟨hcfg, Phase.isIdle_eq_true.mp hblocked.2, rfl⟩

end Sys2Proof.Machine
end

section
/-!
SUPPORT. Proofs of the statements of spec/10_state.md, the invariant: what each update of the state asks for to keep it, then
each phase, each instruction, and the step.
-/

namespace Sys2Proof.Machine

variable {s t : State}

/-! ## The Link calls in order -/

theorem LinkMode.run_snoc {m n : LinkMode} {calls : List LinkCall} {c : LinkCall} {k : LinkMode}
    (h : m.run calls = some n) (hc : n.after c = some k) : m.run (calls ++ [c]) = some k := by
  unfold LinkMode.run at h ⊢
  rw [List.foldl_append, h]
  exact hc

/-- A Link call that is in order where the link stands takes the link on. -/
theorem linkOrder_link {m k : LinkMode} {es : List Event} {c : LinkCall} (h : LinkMode.closed.run (linkTrace es) = some m)
    (hc : m.after c = some k) : LinkMode.closed.run (linkTrace (es ++ [.link c])) = some k := by
  rw [linkTrace_append]
  exact LinkMode.run_snoc h hc

/-- What is no Link call leaves the link where it stands. -/
theorem linkOrder_other {m : LinkMode} {es : List Event} {e : Event} (h : LinkMode.closed.run (linkTrace es) = some m)
    (he : linkTrace [e] = []) : LinkMode.closed.run (linkTrace (es ++ [e])) = some m := by
  rwa [linkTrace_append, he, List.append_nil]

/-! ## Updates that the invariant does not look at -/

theorem State.Inv.popPort (h : s.Inv) : s.popPort.Inv := { h with }

theorem State.Inv.drawn (h : s.Inv) (env : Inputs) : (s.drawn env).Inv := { h with }

theorem State.Inv.afterRead (h : s.Inv) (n : Nat) : (s.afterRead n).Inv := by
  unfold State.afterRead
  split
  · exact h
  · exact h.drawn _

theorem State.Inv.emit (h : s.Inv) {e : Event} (he : linkTrace [e] = []) : (s.emit e).Inv :=
  { h with linkOrder := linkOrder_other h.linkOrder he }

theorem State.Inv.parse (h : s.Inv) (str : Str) : (s.parse str).Inv := by
  rcases s.parse_cases str with ⟨-, ht⟩ | ⟨info, -, ht⟩ | ⟨v, -, ht⟩ <;> rw [ht]
  · exact h
  · exact h.emit rfl
  · exact { h with }

/-! ## Where a POLL stands -/

/-- POLL's commit step ends the one POLL there is. -/
theorem State.Inv.endPoll (h : s.Inv) (hr : s.pollResult.isSome = true) :
    ({ s with pollBusy := false, pollResult := none } : State).Inv :=
  { h with
    pollOnce := by
      have hp := h.pollOnce
      have hb := s.pollBusy.toNat_le
      simp only [State.pollPlaces, State.pollOwnsExchange, hr, Bool.toNat_true, Option.isSome_none, Bool.toNat_false]
        at hp ⊢
      omega }

theorem State.Inv.commitPoll (h : s.Inv) {r : Option Bytes} (hr : s.pollResult = some r) : (s.commitPoll r).Inv := by
  by_cases hc : canonOf s.cfg r = s.lastDecoded
  · rw [State.commitPoll_same hc]
    exact (h.endPoll (by simp [hr])).emit rfl
  · rw [State.commitPoll_changed hc]
    have hstore : ({ s with lastDecoded := canonOf s.cfg r } : State).Inv := { h with }
    have hpub : (s.publish (canonOf s.cfg r)).Inv := (hstore.parse _).emit rfl
    exact (hpub.endPoll (by simp [hr])).emit rfl

/-- The state with no POLL in progress and nobody held: what `State.Inv` says of it is the driver's part of the invariant. -/
def State.quiet (s : State) : State :=
  { s with pollBusy := false, pollResult := none, held := [], xOwner := .host }

/-- An exchange that is over gives its result to its owner: a POLL that owned it stands before its commit step from then on. -/
theorem State.Inv.deliver {owner : Caller} (h : s.quiet.Inv)
    (hheld : ∀ w c n, Waiter.exchange w c n ∈ s.held → n ≤ rxCap)
    (hp : s.pollPlaces + owner.isPoll.toNat = s.pollBusy.toNat) (r : Option Bytes) : (s.deliver owner r).Inv := by
  cases owner with
  | host => exact { h with heldInRange := hheld, pollOnce := hp, linkOrder := linkOrder_other h.linkOrder rfl }
  | poll =>
    refine { h with heldInRange := hheld, pollOnce := ?_ }
    have hb := s.pollBusy.toNat_le
    simp only [State.pollPlaces, State.pollOwnsExchange, State.deliver_poll, Caller.isPoll, Bool.toNat_true,
      Option.isSome_some] at hp ⊢
    omega

/-! ## Requests and grants -/

/-- A caller is held at the lock, and `poll_busy` is set when it is a POLL's (R74, R201). -/
theorem State.Inv.hold (h : s.Inv) {w : Waiter} (hn : ∀ o c n, w = .exchange o c n → n ≤ rxCap)
    (hb : w.isPoll = true → s.pollBusy = false) :
    ({ s with pollBusy := w.isPoll || s.pollBusy, held := s.held ++ [w] } : State).Inv :=
  { h with
    heldInRange := fun o c n hm => by
      rcases List.mem_append.mp hm with hm | hm
      · exact h.heldInRange o c n hm
      · exact hn o c n (List.mem_singleton.mp hm).symm
    pollOnce := by
      have hp := h.pollOnce
      simp only [State.pollPlaces, State.pollOwnsExchange, List.countP_append, List.countP_singleton] at hp ⊢
      cases hw : w.isPoll with
      | false => simpa using hp
      | true =>
        simp only [hb hw, Bool.toNat_false, if_true, Bool.true_or, Bool.toNat_true] at hp ⊢
        omega }

/-- With the lock free no exchange is in progress. -/
theorem State.Inv.not_isExchange_of_free (h : s.Inv) (hb : s.linkBusy = false) : s.seq.isExchange = false :=
  h.lock ▸ hb

/-- The frame build writes TX and nothing else: six cells that hold the frame, in canonical form (R91, R123). -/
theorem State.buildFrame_eq (h : Memory.wf cmdLen s.txbuf) (c : Byte) :
    ∃ tx : Memory, s.buildFrame c = { s with txbuf := tx } ∧ Memory.wf cmdLen tx ∧ tx.readBlock 0 cmdLen = frameBytes c :=
  ⟨(s.buildFrame c).txbuf, rfl, State.buildFrame_txWf h c, s.buildFrame_txBytes c⟩

/-- A frame build while no exchange uses the frame buffer (R29, R123). -/
theorem State.Inv.buildFrame (h : s.Inv) (hb : s.linkBusy = false) (c : Byte) : (s.buildFrame c).Inv := by
  obtain ⟨tx, heq, hwf, -⟩ := State.buildFrame_eq h.txWf c
  rw [heq]
  refine { h with txWf := hwf, frameStands := fun hq => ?_ }
  have hx := h.not_isExchange_of_free hb
  rcases hq with hq | hq <;> exact absurd (hx.symm.trans (congrArg Phase.isExchange hq)) nofun

theorem Phase.eq_idle {q : Phase} (hx : q.isExchange = false) (hp : q.isPower = false) : q = .idle := by
  revert hx hp
  cases q <;> decide

theorem countP_eraseIdx {α : Type} {p : α → Bool} {l : List α} {k : Nat} {a : α} (h : l[k]? = some a) :
    (l.eraseIdx k).countP p + (p a).toNat = l.countP p := by
  obtain ⟨hk, rfl⟩ := List.getElem?_eq_some_iff.mp h
  rw [← (List.getElem_cons_eraseIdx_perm hk).countP_eq, List.countP_cons]
  cases p l[k] <;> rfl

/-- With the lock free, a POLL in progress stands before its commit step, or is the caller that goes on, or is still held. -/
theorem State.Inv.places_of_free (h : s.Inv) (hb : s.linkBusy = false) {k : Nat} {w : Waiter} (hw : s.held[k]? = some w) :
    s.pollResult.isSome.toNat + (s.held.eraseIdx k).countP Waiter.isPoll + w.isPoll.toNat = s.pollBusy.toNat := by
  have hpoll := h.pollOnce
  have hcount := countP_eraseIdx (p := Waiter.isPoll) hw
  simp only [State.pollPlaces, State.pollOwnsExchange, h.not_isExchange_of_free hb, Bool.false_and, Bool.toNat_false]
    at hpoll
  omega

/-- A granted EXCHANGE starts, or is over at once with `none` for its owner (R124, R125). -/
theorem grantExchange_keeps_inv (h : s.Inv) (hb : s.linkBusy = false) {held : List Waiter}
    (hheld : ∀ o c n, Waiter.exchange o c n ∈ held → n ≤ rxCap) {owner : Caller} {c : Byte} {n : Nat} (hn : n ≤ rxCap)
    (hplaces : s.pollResult.isSome.toNat + held.countP Waiter.isPoll + owner.isPoll.toNat = s.pollBusy.toNat)
    (ht : grantExchange owner c n { s with held := held } = .next t) : t.Inv := by
  have hx := h.not_isExchange_of_free hb
  obtain ⟨hp, hgrant⟩ := grantExchange_next ht
  have hq : s.seq = .idle := Phase.eq_idle hx hp
  obtain ⟨tx, heq, hwf, hframe⟩ := State.buildFrame_eq
    (s := { s with held := held, linkBusy := true, cmdReg := c, nReg := n, rxPresent := false }) h.txWf c
  rw [heq] at hgrant
  obtain ⟨hcfg, rfl⟩ | ⟨-, rfl⟩ := hgrant
  · exact { h with
      lock := rfl, ready := fun _ => hcfg, sizeInRange := hn, txWf := hwf, frameStands := fun _ => hframe
      port := h.port.trans (by rw [hq]; rfl)
      responseSize := nofun, readStored := nofun, repLeft := nofun, linesActive := by simp
      heldInRange := hheld
      pollOnce := by
        simp only [State.pollPlaces, State.pollOwnsExchange, Phase.isExchange, Bool.true_and]
        omega
      linkOrder := h.linkOrder.trans (by rw [hq]; rfl) }
  · refine State.Inv.deliver ?driver (by exact hheld) ?places none
    case driver =>
      exact { h with
        lock := hx.symm, sizeInRange := hn, txWf := hwf, frameStands := fun _ => hframe
        responseSize := nofun, readStored := by simp [State.quiet, hq], heldInRange := nofun
        pollOnce := by simp [State.quiet, State.pollPlaces, State.pollOwnsExchange, Caller.isPoll] }
    case places =>
      simp only [State.pollPlaces, State.pollOwnsExchange, hx, Bool.false_and, Bool.toNat_false]
      omega

/-- A held caller goes on: the one that leaves the list is the one that is granted (R74). -/
theorem grantWaiter_keeps_inv (h : s.Inv) {k : Nat} {w : Waiter} (hw : s.held[k]? = some w) (hb : s.linkBusy = false)
    (ht : grantWaiter w { s with held := s.held.eraseIdx k } = .next t) : t.Inv := by
  have hheld : ∀ o c n, Waiter.exchange o c n ∈ s.held.eraseIdx k → n ≤ rxCap :=
    fun o c n hm => h.heldInRange o c n (List.mem_of_mem_eraseIdx hm)
  have hplaces := h.places_of_free hb hw
  cases w with
  | frame c =>
    cases ht
    have hrest : ({ s with held := s.held.eraseIdx k } : State).Inv :=
      { h with
        heldInRange := hheld
        pollOnce := by
          simpa [State.pollPlaces, State.pollOwnsExchange, h.not_isExchange_of_free hb, Waiter.isPoll] using hplaces }
    exact hrest.buildFrame hb c
  | exchange owner c n =>
    exact grantExchange_keeps_inv h hb hheld (h.heldInRange owner c n (List.mem_of_getElem? hw)) hplaces ht

/-- A requested EXCHANGE: the caller is held, and with the lock free granted at once, as if it had been held (R124). -/
theorem requestExchange_keeps_inv {owner : Caller} {c : Byte} {n : Nat}
    (h : n ≤ rxCap → ({ s with held := s.held ++ [.exchange owner c n] } : State).Inv)
    (ht : requestExchange owner c n s = .next t) : t.Inv := by
  obtain ⟨hn, ⟨-, rfl⟩ | ⟨hb, hg⟩⟩ := requestExchange_next ht
  · exact h hn
  · refine grantWaiter_keeps_inv (h hn) (k := s.held.length) (w := .exchange owner c n) (by simp) hb ?_
    simpa [List.eraseIdx_append_of_length_le, grantWaiter] using hg

/-! ## The phases of EXCHANGE -/

/-- During an exchange no response is present (R30). -/
theorem State.Inv.not_rxPresent (h : s.Inv) (hx : s.seq.isExchange = true) : s.rxPresent ≠ true :=
  fun hp => absurd (hx.symm.trans (h.responseSize hp).1) nofun

theorem Phase.not_isPower {q : Phase} (hx : q.isExchange = true) : q.isPower ≠ true := by
  revert hx
  cases q <;> decide

/-- From one phase of an exchange to the next, by one Link call (R72, R124). -/
theorem State.Inv.goOn (h : s.Inv) {p q : Phase} (hp : s.seq = p) (hx : p.isExchange = true) (hqx : q.isExchange = true)
    {c : LinkCall} (hc : p.linkMode.after c = some q.linkMode) {o ok : Bool} (ho : o = q.portIsOpen)
    (hframe : q = .xOpen ∨ q = .xWrite → p = .xOpen ∨ p = .xWrite)
    (hread : q = .xClose → ok = true → s.rxLen = s.nReg) :
    ({ s.linkCall c with seq := q, portOpen := o, xOk := ok } : State).Inv := by
  subst hp
  exact { h with
    lock := h.lock.trans (hx.trans hqx.symm)
    port := ho
    ready := fun _ => h.ready fun hq => absurd (hq ▸ hx) nofun
    frameStands := fun hq => h.frameStands (hframe hq)
    responseSize := fun hp => absurd hp (h.not_rxPresent hx)
    readStored := hread
    repLeft := fun hp => absurd hp (Phase.not_isPower hqx)
    linesActive := by rintro (rfl | rfl) <;> exact nomatch hqx
    pollOnce := by simpa [State.pollPlaces, State.pollOwnsExchange, hx, hqx] using h.pollOnce
    linkOrder := linkOrder_link h.linkOrder hc }

/-- The end of an exchange: the lock is released and the owner gets the result (R126, R129). -/
theorem State.Inv.release (h : s.Inv) {p : Phase} (hp : s.seq = p) (hx : p.isExchange = true) {c : LinkCall}
    (hc : p.linkMode.after c = some .closed) {o present : Bool} (ho : o = false)
    (hpresent : present = true → s.rxLen = s.nReg) (r : Option Bytes) :
    (State.deliver { s.linkCall c with seq := .idle, linkBusy := false, portOpen := o, rxPresent := present }
      s.xOwner r).Inv := by
  subst hp
  refine State.Inv.deliver ?driver (by exact h.heldInRange) ?places r
  case driver =>
    exact { h with
      lock := rfl, port := ho, ready := fun hq => absurd rfl hq, frameStands := by simp [State.quiet]
      responseSize := fun hp => ⟨rfl, hpresent hp⟩, readStored := nofun, repLeft := nofun
      linesActive := by simp [State.quiet], heldInRange := nofun, pollOnce := rfl
      linkOrder := linkOrder_link h.linkOrder hc }
  case places =>
    have hpoll := h.pollOnce
    simp only [State.pollPlaces, State.pollOwnsExchange, hx, Bool.true_and] at hpoll
    simp only [State.pollPlaces, State.pollOwnsExchange, Phase.isExchange, Bool.false_and, Bool.toNat_false,
      State.linkCall_eq_emit, State.emit_pollResult, State.emit_held, State.emit_pollBusy]
    omega

/-- A read of the size asked for is stored (R128). -/
theorem State.Inv.storeRead (h : s.Inv) (hx : s.seq.isExchange = true) {rx : Memory} (hrx : Memory.wf rxCap rx) {n : Nat}
    (hn : n = s.nReg) : ({ s with rxbuf := rx, rxLen := n } : State).Inv :=
  { h with
    lengthInRange := hn ▸ h.sizeInRange
    rxWf := hrx
    responseSize := fun hp => absurd hp (h.not_rxPresent hx)
    readStored := fun _ _ => hn }

theorem phaseOpen_keeps_inv (h : s.Inv) (hq : s.seq = .xOpen) (ht : phaseOpen s = .next t) : t.Inv := by
  rcases phaseOpen_next ht with ⟨-, rfl⟩ | ⟨-, rfl⟩
  · exact (h.drawn _).goOn hq rfl rfl rfl rfl (fun _ => .inl rfl) nofun
  · have hport : s.portOpen = false := h.port.trans (by rw [hq]; rfl)
    have hpresent : s.rxPresent ≠ true := h.not_rxPresent (by rw [hq]; rfl)
    exact (h.drawn _).release hq rfl rfl hport (fun hp => absurd hp hpresent) none

/-- A write that is not accepted leaves only the close (R127, R130). -/
theorem LinkMode.after_failed_write {a : WriteAnswer} (h : a ≠ .accepted) (bytes : Bytes) :
    LinkMode.opened.after (.write bytes a) = some .ending := by
  cases a with
  | accepted => exact absurd rfl h
  | rejected => rfl
  | err => rfl

theorem phaseWrite_keeps_inv (h : s.Inv) (hq : s.seq = .xWrite) (ht : phaseWrite s = .next t) : t.Inv := by
  have hport : s.portOpen = true := h.port.trans (by rw [hq]; rfl)
  rcases phaseWrite_next ht with ⟨-, rfl⟩ | ⟨hno, rfl⟩
  · exact (h.drawn _).goOn hq rfl rfl rfl hport (by simp) nofun
  · exact (h.drawn _).goOn (q := .xClose) hq rfl rfl (LinkMode.after_failed_write hno _) hport (by simp) nofun

theorem phaseRead_keeps_inv (h : s.Inv) (hq : s.seq = .xRead) (ht : phaseRead s = .next t) : t.Inv := by
  have hdraw : (s.afterRead s.nReg).Inv := h.afterRead _
  have hdrawq : (s.afterRead s.nReg).seq = .xRead := by simpa using hq
  have hport : (s.afterRead s.nReg).portOpen = true := hdraw.port.trans (by rw [hdrawq]; rfl)
  rcases phaseRead_next ht with ⟨-, rfl⟩ | ⟨bytes, -, hlen, hcap, rfl⟩
  · exact hdraw.goOn (q := .xClose) hdrawq rfl rfl rfl hport (by simp) nofun
  · have hrx : Memory.wf rxCap (s.rxbuf.writeBlock 0 bytes) := Memory.writeBlock_wf h.rxWf (by omega)
    have hn : s.nReg = (s.afterRead s.nReg).nReg := by simp
    exact (hdraw.storeRead (by rw [hdrawq]; rfl) hrx hn).goOn (q := .xClose) hdrawq rfl rfl rfl hport (by simp)
      (fun _ _ => hn)

theorem phaseClose_keeps_inv (h : s.Inv) (hq : s.seq = .xClose) (ht : phaseClose s = .next t) : t.Inv := by
  obtain ⟨r, ⟨hok, -, rfl⟩ | ⟨-, -, rfl⟩⟩ := phaseClose_next ht
  · exact h.release hq rfl rfl rfl (fun _ => h.readStored hq hok) r
  · have hpresent : s.rxPresent ≠ true := h.not_rxPresent (by rw [hq]; rfl)
    exact h.release hq rfl rfl rfl (fun hp => absurd hp hpresent) r

/-! ## The control lines, SETUP and POWERON -/

theorem Phase.portIsOpen_of_not_isExchange {q : Phase} (hx : q.isExchange = false) : q.portIsOpen = false := by
  revert hx
  cases q <;> decide

theorem Phase.linkMode_of_not_isExchange {q : Phase} (hx : q.isExchange = false) : q.linkMode = .closed := by
  revert hx
  cases q <;> decide

/-- A Link call that is none of an exchange's, while no exchange is in progress. -/
theorem State.Inv.callClosed (h : s.Inv) (hx : s.seq.isExchange = false) {c : LinkCall}
    (hc : LinkMode.closed.after c = some .closed) : (s.linkCall c).Inv :=
  { h with
    linkOrder := by
      have hmode := Phase.linkMode_of_not_isExchange hx
      exact (linkOrder_link (h.linkOrder.trans (congrArg some hmode)) hc).trans (congrArg some hmode.symm) }

/-- The lines are driven, outside an exchange and outside a hold (R24). -/
theorem State.Inv.setLines (h : s.Inv) (hx : s.seq.isExchange = false) {l : Bool × Bool}
    (hl : s.seq = .pHold ∨ s.seq = .pRestore → l = activeLines) : (s.setLines l).Inv :=
  { h.callClosed (c := .setControlLines l.1 l.2) hx rfl with linesActive := hl }

/-- From one phase outside an exchange to another: the phases of POWERON and `IDLE` (R131 to R135). -/
theorem State.Inv.enter (h : s.Inv) (hx : s.seq.isExchange = false) {q : Phase} (hqx : q.isExchange = false)
    (hcfg : q ≠ .idle → s.configured = true) {rep : Nat} (hrep : rep ≤ pwrReps) (hleft : q.isPower = true → rep < pwrReps)
    (hlines : q = .pHold ∨ q = .pRestore → (s.dtr, s.rts) = activeLines) :
    ({ s with seq := q, pwrRep := rep } : State).Inv :=
  { h with
    lock := h.lock.trans (hx.trans hqx.symm)
    port := h.port.trans ((Phase.portIsOpen_of_not_isExchange hx).trans (Phase.portIsOpen_of_not_isExchange hqx).symm)
    ready := hcfg
    frameStands := by rintro (rfl | rfl) <;> exact nomatch hqx
    responseSize := fun hp => ⟨hqx, (h.responseSize hp).2⟩
    readStored := by rintro rfl; exact nomatch hqx
    repInRange := hrep
    repLeft := hleft
    linesActive := hlines
    pollOnce := by simpa [State.pollPlaces, State.pollOwnsExchange, hx, hqx] using h.pollOnce
    linkOrder := h.linkOrder.trans (congrArg some
      ((Phase.linkMode_of_not_isExchange hx).trans (Phase.linkMode_of_not_isExchange hqx).symm)) }

theorem phaseActive_keeps_inv (h : s.Inv) (hq : s.seq = .pActive) (ht : phaseActive s = .next t) : t.Inv := by
  have hx : s.seq.isExchange = false := by rw [hq]; rfl
  have hpower : s.seq.isPower = true := by rw [hq]; rfl
  cases ht
  exact (h.setLines hx (fun _ => rfl)).enter hx rfl (fun _ => h.ready (by simp [hq])) h.repInRange
    (fun _ => h.repLeft hpower) (fun _ => rfl)

/-- An interrupted hold ends POWERON, the lines restored or as they were (R135). -/
theorem abortPoweron_keeps_inv (h : s.Inv) (hq : s.seq = .pHold) : (abortPoweron s).Inv := by
  have hx : s.seq.isExchange = false := by rw [hq]; rfl
  have hreport : (s.report .interrupted (.powerOnAborted (s.pwrRep + 1))).afterRestoreDraw.Inv := (h.emit rfl).drawn _
  have hidle := hreport.enter (q := .idle) hx rfl (fun hne => absurd rfl hne) h.repInRange nofun (by simp)
  unfold abortPoweron
  split
  · exact (hidle.setLines rfl (l := idleLines) (by simp)).emit rfl
  · exact hidle.emit rfl

theorem phaseHold_keeps_inv (h : s.Inv) (hq : s.seq = .pHold) (ht : phaseHold s = .next t) : t.Inv := by
  have hx : s.seq.isExchange = false := by rw [hq]; rfl
  have hpower : s.seq.isPower = true := by rw [hq]; rfl
  rcases phaseHold_next ht with ⟨-, rfl⟩ | ⟨-, rfl⟩
  · exact ((h.drawn _).emit rfl).enter hx rfl (fun _ => h.ready (by simp [hq])) h.repInRange
      (fun _ => h.repLeft hpower) (fun _ => h.linesActive (.inl hq))
  · exact abortPoweron_keeps_inv ((h.drawn _).emit rfl) hq

theorem phaseRestore_keeps_inv (h : s.Inv) (hq : s.seq = .pRestore) (ht : phaseRestore s = .next t) : t.Inv := by
  have hx : s.seq.isExchange = false := by rw [hq]; rfl
  have hlt : s.pwrRep < pwrReps := h.repLeft (by rw [hq]; rfl)
  rcases phaseRestore_next ht with ⟨hmore, rfl⟩ | ⟨-, rfl⟩
  · have hactive := h.enter (q := .pActive) (rep := s.pwrRep + 1) hx rfl (fun _ => h.ready (by simp [hq])) hlt
      (fun _ => hmore) (by simp)
    exact hactive.setLines rfl (by simp)
  · have hidle := h.enter (q := .idle) (rep := s.pwrRep + 1) hx rfl (fun hne => absurd rfl hne) hlt nofun (by simp)
    exact (hidle.setLines rfl (by simp)).emit rfl

theorem phaseStep_keeps_inv (h : s.Inv) (ht : phaseStep s = .next t) : t.Inv := by
  unfold phaseStep at ht
  split at ht <;> rename_i hq
  · cases ht; exact h
  · exact phaseOpen_keeps_inv h hq ht
  · exact phaseWrite_keeps_inv h hq ht
  · exact phaseRead_keeps_inv h hq ht
  · exact phaseClose_keeps_inv h hq ht
  · exact phaseActive_keeps_inv h hq ht
  · exact phaseHold_keeps_inv h hq ht
  · exact phaseRestore_keeps_inv h hq ht

/-! ## The instructions -/

/-- In `IDLE` the link registers are free to change (R21, R22). -/
theorem State.Inv.configure (h : s.Inv) (hq : s.seq = .idle) (p : Option Str) (b : Bool) :
    ({ s with portId := p, configured := b } : State).Inv :=
  { h with ready := fun hne => absurd hq hne }

theorem setupFails_keeps_inv (h : s.Inv) (hq : s.seq = .idle) (info : ReportInfo) : (setupFails info s).Inv :=
  ((h.configure hq s.portId false).emit rfl).emit rfl

theorem execSetup_keeps_inv {pid : Option Str} (h : s.Inv) (ht : execSetup pid s = .next t) : t.Inv := by
  obtain ⟨hq, ⟨-, rfl⟩ | ⟨port, -, rfl⟩⟩ := execSetup_next ht
  · exact setupFails_keeps_inv (h.configure hq none s.configured) hq _
  · have hx : s.seq.isExchange = false := by rw [hq]; rfl
    have hport : ({ s with portId := some port } : State).Inv := h.configure hq (some port) s.configured
    have hcall (b : Bool) := (hport.drawn { s.env with configures := s.env.configures.tail }).callClosed hx
      (c := .configure port linkConfig b) rfl
    rcases setupPort_cases port { s with portId := some port } with ht | ht <;> rw [ht]
    · exact (((hcall true).setLines hx (l := idleLines) (by simp [hq])).configure hq (some port) true).emit rfl
    · exact setupFails_keeps_inv (hcall false) hq _

theorem execCmdframe_keeps_inv {c : Byte} (h : s.Inv) (ht : execCmdframe c s = .next t) : t.Inv := by
  unfold execCmdframe at ht
  split at ht
  · cases ht
    exact h.hold (w := .frame c) nofun nofun
  · rename_i hb
    cases ht
    exact h.buildFrame (by simpa using hb) c

/-- A host's EXCHANGE. -/
theorem requestExchange_host_keeps_inv {c : Byte} {n : Nat} (h : s.Inv) (ht : requestExchange .host c n s = .next t) :
    t.Inv :=
  requestExchange_keeps_inv (fun hn => h.hold (w := .exchange .host c n) (by rintro o c' n' ⟨⟩; exact hn) nofun) ht

theorem execPoll_keeps_inv (h : s.Inv) (ht : execPoll s = .next t) : t.Inv := by
  obtain ⟨hb, hreq⟩ := execPoll_next ht
  exact requestExchange_keeps_inv
    (fun hn => h.hold (w := .exchange .poll cmdDisplay respSize) (by rintro o c' n' ⟨⟩; exact hn) (fun _ => hb)) hreq

theorem execPoweron_keeps_inv (h : s.Inv) (ht : execPoweron s = .next t) : t.Inv := by
  obtain ⟨hcfg, hq, rfl⟩ := execPoweron_next ht
  exact h.enter (by rw [hq]; rfl) rfl (fun _ => hcfg) (Nat.zero_le _) (fun _ => by decide) (by simp)

theorem exec_keeps_inv {i : Instr} (h : s.Inv) (ht : exec i s = .next t) : t.Inv := by
  cases i with
  | cmdframe c => exact execCmdframe_keeps_inv h ht
  | queryDisplay => exact requestExchange_host_keeps_inv (c := cmdDisplay) (n := respSize) h ht
  | exchange c n => exact requestExchange_host_keeps_inv h ht
  | setup pid => exact execSetup_keeps_inv h ht
  | poweron => exact execPoweron_keeps_inv h ht
  | poll => exact execPoll_keeps_inv h ht
  | parse str => cases ht; exact (h.parse str).emit rfl
  | respDisplay raw => cases ht; exact h.emit rfl
  | getsnapshot => cases ht; exact h.emit rfl
  | decode raw => cases ht; exact h.emit rfl
  | cmap b => cases ht; exact h.emit rfl

/-! ## The step -/

/-- The block's own move, taken from the state whose port and choices may have advanced (R36, R74). -/
theorem runMove_keeps_inv {m : Move} (h : s.Inv) (hm : m ∈ s.moves) (ht : runMove m s = .next t) : t.Inv := by
  rcases mem_moves hm with ⟨rfl, -⟩ | ⟨r, rfl, hr, -⟩ | ⟨k, w, rfl, hw, hb⟩
  · exact phaseStep_keeps_inv h ht
  · cases ht
    exact h.commitPoll hr
  · simp only [runMove, hw] at ht
    exact grantWaiter_keeps_inv h hw hb ht

/-- Settles O51: the invariant is kept by what the port takes and by every kind of step there is. -/
theorem stepKeepsInvariant : Obligations.StepKeepsInvariant := by
  intro s t h ht
  rcases step_next ht with ⟨r, i, -, -, hexec⟩ | ⟨bytes, -, rfl⟩ | ⟨-, -, rfl⟩ | ⟨-, m, u, hm, hu, hrun⟩
  · exact exec_keeps_inv h.popPort hexec
  · exact h.popPort.emit rfl
  · exact h.popPort
  · rcases hu with rfl | rfl
    · exact runMove_keeps_inv h.popPort hm hrun
    · exact runMove_keeps_inv (h.popPort.drawn _) hm hrun

end Sys2Proof.Machine
end

section
/-!
SUPPORT. Proofs of the statements of spec/10_state.md, who writes what: the registers of SETUP, the snapshot, the control lines.
-/

namespace Sys2Proof.Machine

variable {s t : State}

/-! ## What a step writes -/

/-- From `s` to `t` exactly these `setControlLines` calls have gone out, and the lines hold what the last of them drove (R24). -/
def State.DrivesLines (s t : State) (calls : List (Bool × Bool)) : Prop :=
  (∃ sent, t.out = s.out ++ sent ∧ lineCalls (linkTrace sent) = calls) ∧ (t.dtr, t.rts) = calls.getLastD (s.dtr, s.rts)

/-- From `s` to `t` the registers SETUP and PARSE write are as they were, and exactly these line calls have gone out. -/
structure State.Frame (s t : State) (calls : List (Bool × Bool)) : Prop where
  portId : t.portId = s.portId
  configured : t.configured = s.configured
  snapshot : t.snapshot = s.snapshot
  lines : s.DrivesLines t calls

theorem State.Frame.refl (s : State) : s.Frame s [] := ⟨rfl, rfl, rfl, ⟨[], by simp, rfl⟩, rfl⟩

/-- An event that is no Link call adds no line call. -/
theorem State.DrivesLines.emit {calls : List (Bool × Bool)} (h : s.DrivesLines t calls) {e : Event} (he : linkTrace [e] = []) :
    s.DrivesLines (t.emit e) calls := by
  obtain ⟨⟨sent, hout, hcalls⟩, hlines⟩ := h
  exact ⟨⟨sent ++ [e], by simp [hout], by rw [linkTrace_append, he, List.append_nil, hcalls]⟩, hlines⟩

theorem State.Frame.emit {calls : List (Bool × Bool)} (h : s.Frame t calls) {e : Event} (he : linkTrace [e] = []) :
    s.Frame (t.emit e) calls :=
  { h with lines := h.lines.emit he }

theorem State.Frame.deliver {calls : List (Bool × Bool)} (h : s.Frame t calls) (owner : Caller) (r : Option Bytes) :
    s.Frame (t.deliver owner r) calls := by
  cases owner with
  | host => exact h.emit rfl
  | poll => exact { h with }

theorem State.Frame.buildFrame {calls : List (Bool × Bool)} (h : s.Frame t calls) (c : Byte) :
    s.Frame (t.buildFrame c) calls := by
  obtain ⟨tx, heq⟩ : ∃ tx, t.buildFrame c = { t with txbuf := tx } := ⟨_, rfl⟩
  rw [heq]
  exact { h with }

theorem State.DrivesLines.parse (s : State) (str : Str) : s.DrivesLines (s.parse str) [] := by
  refine ⟨?_, by simp⟩
  rcases s.parse_out str with hout | ⟨info, hout⟩
  · exact ⟨[], by simp [hout], rfl⟩
  · exact ⟨_, hout, rfl⟩

theorem State.DrivesLines.commitPoll (s : State) (r : Option Bytes) : s.DrivesLines (s.commitPoll r) [] := by
  by_cases hc : canonOf s.cfg r = s.lastDecoded
  · rw [State.commitPoll_same hc]
    exact ⟨⟨_, rfl, rfl⟩, rfl⟩
  · rw [State.commitPoll_changed hc]
    exact ((State.DrivesLines.parse { s with lastDecoded := canonOf s.cfg r } _).emit (e := .push _) rfl).emit rfl

/-- A commit step that leaves `lastDecoded` leaves the snapshot (R204). -/
theorem State.commitPoll_snapshot_of_lastDecoded {r : Option Bytes} (h : (s.commitPoll r).lastDecoded = s.lastDecoded) :
    (s.commitPoll r).snapshot = s.snapshot := by
  rw [State.commitPoll_lastDecoded] at h
  rw [State.commitPoll_same h]
  rfl

theorem grantExchange_frame {owner : Caller} {c : Byte} {n : Nat} (h : grantExchange owner c n s = .next t) :
    s.Frame t [] := by
  have hbuilt : s.Frame ({ s with linkBusy := true, cmdReg := c, nReg := n, rxPresent := false }.buildFrame c) [] :=
    State.Frame.buildFrame (by exact { State.Frame.refl s with }) c
  obtain ⟨-, ⟨-, rfl⟩ | ⟨-, rfl⟩⟩ := grantExchange_next h
  · exact { hbuilt with }
  · refine State.Frame.deliver ?_ owner none
    exact { hbuilt with }

theorem requestExchange_frame {owner : Caller} {c : Byte} {n : Nat} (h : requestExchange owner c n s = .next t) :
    s.Frame t [] := by
  obtain ⟨-, ⟨-, rfl⟩ | ⟨-, hgrant⟩⟩ := requestExchange_next h
  · exact { State.Frame.refl s with }
  · exact grantExchange_frame hgrant

theorem grantWaiter_frame {w : Waiter} (h : grantWaiter w s = .next t) : s.Frame t [] := by
  cases w with
  | exchange owner c n => exact grantExchange_frame h
  | frame c => cases h; exact (State.Frame.refl s).buildFrame c

theorem execCmdframe_frame {c : Byte} (h : execCmdframe c s = .next t) : s.Frame t [] := by
  unfold execCmdframe at h
  split at h <;> cases h
  · exact { State.Frame.refl s with }
  · exact (State.Frame.refl s).buildFrame c

/-- What is neither SETUP nor PARSE writes none of their registers and drives no line. -/
theorem exec_frame {i : Instr} (h : exec i s = .next t) (hsetup : ∀ pid, i ≠ .setup pid)
    (hparse : ∀ str, i ≠ .parse str) : s.Frame t [] := by
  have hresult (r : Result) : s.Frame (s.emit (.result r)) [] := ⟨rfl, rfl, rfl, ⟨[_], rfl, rfl⟩, rfl⟩
  cases i with
  | setup pid => exact absurd rfl (hsetup pid)
  | parse str => exact absurd rfl (hparse str)
  | cmdframe c => exact execCmdframe_frame h
  | queryDisplay => exact requestExchange_frame (c := cmdDisplay) (n := respSize) h
  | exchange c n => exact requestExchange_frame h
  | poll => exact { requestExchange_frame (execPoll_next h).2 with }
  | poweron =>
    obtain ⟨-, -, rfl⟩ := execPoweron_next h
    exact { State.Frame.refl s with }
  | respDisplay raw => cases h; exact hresult _
  | getsnapshot => cases h; exact hresult _
  | decode raw => cases h; exact hresult _
  | cmap b => cases h; exact hresult _

/-- A Link call that drives no line. -/
theorem State.Frame.linkCall (s : State) {c : LinkCall} (hc : lineCalls [c] = []) : s.Frame (s.linkCall c) [] :=
  ⟨rfl, rfl, rfl, ⟨[.link c], rfl, hc⟩, rfl⟩

theorem State.Frame.drawn {calls : List (Bool × Bool)} (h : s.Frame t calls) (env : Inputs) : s.Frame (t.drawn env) calls :=
  { h with }

/-- The lines are driven once (R24). -/
theorem State.Frame.setLines (h : s.Frame t []) (l : Bool × Bool) : s.Frame (t.setLines l) [l] := by
  obtain ⟨⟨sent, hout, hcalls⟩, -⟩ := h.lines
  exact { h with lines := ⟨⟨sent ++ [.link (.setControlLines l.1 l.2)], by simp [hout], by simp [hcalls]⟩, rfl⟩ }

/-- SETUP stores its operand, keeps the snapshot, and drives the lines not at all or once, to the idle state (R121). -/
theorem execSetup_writes {pid : Option Str} (h : execSetup pid s = .next t) :
    t.portId = pid ∧ t.snapshot = s.snapshot ∧ (s.DrivesLines t [] ∨ s.DrivesLines t [idleLines]) := by
  obtain ⟨-, ⟨rfl, rfl⟩ | ⟨port, rfl, rfl⟩⟩ := execSetup_next h
  · exact ⟨rfl, rfl, .inl ⟨⟨[_, _], List.append_assoc .., rfl⟩, rfl⟩⟩
  · have hcall (b : Bool) := State.Frame.linkCall ({ s with portId := some port } : State).afterConfigure
      (c := .configure port linkConfig b) rfl
    rcases setupPort_cases port { s with portId := some port } with ht | ht <;> rw [ht]
    · exact ⟨rfl, rfl, .inr (((hcall true).setLines idleLines).emit (e := .result .setupOk) rfl).lines⟩
    · exact ⟨rfl, rfl, .inl (((hcall false).emit (e := .report .configurationError .linkRejected) rfl).emit
        (e := .result .setupFailure) rfl).lines⟩

theorem phaseOpen_frame (h : phaseOpen s = .next t) : s.Frame t [] := by
  rcases phaseOpen_next h with ⟨-, rfl⟩ | ⟨-, rfl⟩
  · exact { State.Frame.linkCall s (c := .openPort true) rfl with }
  · refine State.Frame.deliver ?_ s.xOwner none
    exact { State.Frame.linkCall s (c := .openPort false) rfl with }

theorem phaseWrite_frame (h : phaseWrite s = .next t) : s.Frame t [] := by
  rcases phaseWrite_next h with ⟨-, rfl⟩ | ⟨-, rfl⟩
  · exact { State.Frame.linkCall s (c := .write s.txBytes .accepted) rfl with }
  · exact { State.Frame.linkCall s (c := .write s.txBytes s.writeAnswer) rfl with }

theorem phaseRead_frame (h : phaseRead s = .next t) : s.Frame t [] := by
  have hread (a : Option Bytes) : s.Frame ((s.afterRead s.nReg).linkCall (.readExact s.nReg tReadMs a)) [] := by
    unfold State.afterRead
    split <;> exact { State.Frame.linkCall s (c := .readExact s.nReg tReadMs a) rfl with }
  rcases phaseRead_next h with ⟨-, rfl⟩ | ⟨bytes, -, -, -, rfl⟩
  · exact { hread none with }
  · exact { hread (some bytes) with }

theorem phaseClose_frame (h : phaseClose s = .next t) : s.Frame t [] := by
  have hclose : s.Frame (s.linkCall .closePort) [] := State.Frame.linkCall s rfl
  obtain ⟨r, ⟨-, -, rfl⟩ | ⟨-, -, rfl⟩⟩ := phaseClose_next h <;> refine State.Frame.deliver ?_ s.xOwner r
  · exact { hclose with }
  · exact { hclose with }

theorem phaseHold_frame (h : phaseHold s = .next t) : s.Frame t [] ∨ s.Frame t [idleLines] := by
  have hslept (a : SleepAnswer) : s.Frame (s.afterSleep.emit (.sleep tHoldMs a)) [] :=
    ((State.Frame.refl s).drawn _).emit rfl
  rcases phaseHold_next h with ⟨-, rfl⟩ | ⟨-, rfl⟩
  · exact .inl { hslept .elapsed with }
  · have habort := ((hslept .interrupted).emit (e := .report .interrupted (.powerOnAborted (s.pwrRep + 1))) rfl).drawn
      { s.env with sleeps := s.env.sleeps.tail, restores := s.env.restores.tail }
    unfold abortPoweron
    split
    · exact .inr { (habort.setLines idleLines).emit (e := .result .poweronInterrupted) rfl with }
    · exact .inl { habort.emit (e := .result .poweronInterrupted) rfl with }

theorem phaseRestore_frame (h : phaseRestore s = .next t) : s.Frame t [idleLines] := by
  have hlines : s.Frame (s.setLines idleLines) [idleLines] := (State.Frame.refl s).setLines idleLines
  rcases phaseRestore_next h with ⟨-, rfl⟩ | ⟨-, rfl⟩
  · exact { hlines with }
  · exact { hlines.emit (e := .result .poweronDone) rfl with }

/-- A phase drives the lines only in POWERON, and then once, to the idle or the active state (R132, R134, R135). -/
theorem phaseStep_frame (h : phaseStep s = .next t) :
    s.Frame t [] ∨ (s.seq.isPower = true ∧ ∃ l, (l = idleLines ∨ l = activeLines) ∧ s.Frame t [l]) := by
  unfold phaseStep at h
  split at h <;> rename_i hq
  · cases h; exact .inl (State.Frame.refl s)
  · exact .inl (phaseOpen_frame h)
  · exact .inl (phaseWrite_frame h)
  · exact .inl (phaseRead_frame h)
  · exact .inl (phaseClose_frame h)
  · cases h
    exact .inr ⟨by rw [hq]; rfl, activeLines, .inr rfl, { (State.Frame.refl s).setLines activeLines with }⟩
  · exact (phaseHold_frame h).imp_right fun hf => ⟨by rw [hq]; rfl, idleLines, .inl rfl, hf⟩
  · exact .inr ⟨by rw [hq]; rfl, idleLines, .inl rfl, phaseRestore_frame h⟩

/-- What a step that goes on has written: the registers of SETUP, of PARSE, of a POLL's commit step, the lines by a phase of
POWERON, or none of these. -/
inductive State.StepWrites (s t : State) : Prop
  | setup (r : Request) (pid : Option Str) (presented : s.presented = some r) (decoded : decode r = .ok (.setup pid))
      (portId : t.portId = pid) (snapshot : t.snapshot = s.snapshot)
      (lines : s.DrivesLines t [] ∨ s.DrivesLines t [idleLines])
  | parse (r : Request) (str : Str) (presented : s.presented = some r) (decoded : decode r = .ok (.parse str))
      (portId : t.portId = s.portId) (configured : t.configured = s.configured) (lines : s.DrivesLines t [])
  | commit (presented : s.presented = none) (returned : s.pollResult.isSome = true) (idle : s.seq = .idle)
      (portId : t.portId = s.portId) (configured : t.configured = s.configured)
      (snapshot : t.lastDecoded = s.lastDecoded → t.snapshot = s.snapshot) (lines : s.DrivesLines t [])
  | power (presented : s.presented = none) (power : s.seq.isPower = true) (l : Bool × Bool)
      (level : l = idleLines ∨ l = activeLines) (frame : s.Frame t [l])
  | other (frame : s.Frame t [])

theorem exec_writes {r : Request} {i : Instr} (hp : s.presented = some r) (hd : decode r = .ok i)
    (h : exec i s.popPort = .next t) : s.StepWrites t := by
  by_cases hsetup : ∃ pid, i = .setup pid
  · obtain ⟨pid, rfl⟩ := hsetup
    obtain ⟨hport, hsnap, hlines⟩ := execSetup_writes h
    exact .setup r pid hp hd hport hsnap hlines
  by_cases hparse : ∃ str, i = .parse str
  · obtain ⟨str, rfl⟩ := hparse
    cases h
    exact .parse r str hp hd (by simp) (by simp) ((State.DrivesLines.parse s.popPort str).emit rfl)
  exact .other { exec_frame h (not_exists.mp hsetup) (not_exists.mp hparse) with }

/-- A move of the block, taken with whatever the port and the answers to come have become. -/
theorem runMove_writes {m : Move} {hostIn : List (Option Request)} {env : Inputs} {draws : Nat} (hp : s.presented = none)
    (hm : m ∈ s.moves) (h : runMove m { s with hostIn := hostIn, env := env, draws := draws } = .next t) :
    s.StepWrites t := by
  rcases mem_moves hm with ⟨rfl, -⟩ | ⟨r, rfl, hr, hq⟩ | ⟨k, w, rfl, hw, -⟩
  · rcases phaseStep_frame h with hf | ⟨hpower, l, hl, hf⟩
    · exact .other { hf with }
    · exact .power hp hpower l hl { hf with }
  · cases h
    exact .commit hp (by simp [hr]) (Phase.isIdle_eq_true.mp hq) (State.commitPoll_portId ..)
      (State.commitPoll_configured ..) State.commitPoll_snapshot_of_lastDecoded (State.DrivesLines.commitPoll ..)
  · simp only [runMove, hw] at h
    exact .other { grantWaiter_frame h with }

/-- Every step that goes on is of one of these kinds. -/
theorem step_writes (h : step s = .next t) : s.StepWrites t := by
  rcases step_next h with ⟨r, i, hp, hd, hexec⟩ | ⟨bytes, -, rfl⟩ | ⟨-, -, rfl⟩ | ⟨hp, m, u, hm, hu, hrun⟩
  · exact exec_writes hp hd hexec
  · exact .other { (State.Frame.refl s).emit (e := .result _) rfl with }
  · exact .other { State.Frame.refl s with }
  · rcases hu with rfl | rfl
    · exact runMove_writes hp hm hrun
    · exact runMove_writes hp hm hrun

/-- Settles O58: of the kinds of step only PARSE and a storing commit step leave another snapshot. -/
theorem snapshotWrittenOnlyByParse : Obligations.SnapshotWrittenOnlyByParse := by
  intro s t h hne
  cases step_writes h with
  | setup r pid hp hd portId snapshot lines => exact absurd snapshot hne
  | parse r str hp hd portId configured lines => exact .inl ⟨r, str, hp, hd⟩
  | commit hp hr hq portId configured snapshot lines => exact .inr ⟨hp, hr, hq, fun hl => hne (snapshot hl)⟩
  | power hp hq l hl frame => exact absurd frame.snapshot hne
  | other frame => exact absurd frame.snapshot hne

/-- Settles O59: of the kinds of step only SETUP leaves another `port_id` or `configured`. -/
theorem onlySetupConfigures : Obligations.OnlySetupConfigures := by
  intro s t h hne
  have hkept (hport : t.portId = s.portId) (hcfg : t.configured = s.configured) : False :=
    hne.elim (absurd hport) (absurd hcfg)
  cases step_writes h with
  | setup r pid hp hd portId snapshot lines => exact ⟨r, pid, hp, hd, portId⟩
  | parse r str hp hd portId configured lines => exact (hkept portId configured).elim
  | commit hp hr hq portId configured snapshot lines => exact (hkept portId configured).elim
  | power hp hq l hl frame => exact (hkept frame.portId frame.configured).elim
  | other frame => exact (hkept frame.portId frame.configured).elim

/-- Who drives the lines in a step: nobody, SETUP to the idle state, or a phase of POWERON to one of the two (R24). -/
theorem State.StepWrites.lines (h : s.StepWrites t) :
    s.DrivesLines t [] ∨ ∃ l, s.DrivesLines t [l] ∧
      ((l = idleLines ∧ ∃ r pid, s.presented = some r ∧ decode r = .ok (.setup pid)) ∨
        ((l = idleLines ∨ l = activeLines) ∧ s.presented = none ∧ s.seq.isPower = true)) := by
  cases h with
  | setup r pid hp hd portId snapshot lines =>
    exact lines.imp_right fun hl => ⟨idleLines, hl, .inl ⟨rfl, r, pid, hp, hd⟩⟩
  | parse r str hp hd portId configured lines => exact .inl lines
  | commit hp hr hq portId configured snapshot lines => exact .inl lines
  | power hp hq l hl frame => exact .inr ⟨l, frame.lines, .inr ⟨hl, hp, hq⟩⟩
  | other frame => exact .inl frame.lines

/-- Settles O60: of the kinds of step SETUP and a phase of POWERON drive the lines, once each, and the others do not. -/
theorem linesChangeByOneCall : Obligations.LinesChangeByOneCall := by
  intro s t h
  obtain ⟨⟨sent, hout, hcalls⟩, hkept⟩ | ⟨l, ⟨⟨sent, hout, hcalls⟩, hlast⟩, hby⟩ := (step_writes h).lines
  · exact ⟨sent, hout, .inl ⟨hcalls, hkept⟩⟩
  · have hpair : (t.dtr, t.rts) = l := hlast
    subst hpair
    exact ⟨sent, hout, .inr ⟨hcalls, hby⟩⟩

end Sys2Proof.Machine
end

section
/-!
SUPPORT. Proofs of the statements of spec/20_memory.md: the order of the Link calls along a run, who waits at the link lock, and
who goes on with it.
-/

namespace Sys2Proof.Machine

variable {s t : State}

/-! ## Runs -/

/-- A run keeps the invariant as each of its steps does. -/
theorem core_run_keeps_inv {k : Nat} (h : s.Inv) (ht : Sys2Proof.core.run k s = .next t) : t.Inv := by
  induction k generalizing s with
  | zero => cases ht; exact h
  | succ k ih =>
    cases hs : step s with
    | next u =>
      rw [core_run_next hs] at ht
      exact ih (stepKeepsInvariant s u h hs) ht
    | fault f => rw [core_run_fault hs] at ht; cases ht
    | refused r => rw [core_run_refused hs] at ht; cases ht

/-- Settles O52: the order of the Link calls is a part of the invariant, which a run keeps. -/
theorem runsKeepLinkOrder : Obligations.RunsKeepLinkOrder :=
  fun _ _ _ h ht => (core_run_keeps_inv h ht).linkOrder

/-! ## Requests at the lock -/

theorem requestExchange_of_busy {n : Nat} (hn : n ≤ rxCap) (hb : s.linkBusy = true) (owner : Caller) (c : Byte) :
    requestExchange owner c n s = .next { s with held := s.held ++ [.exchange owner c n] } := by
  simp [requestExchange, hb, Nat.not_lt.mpr hn]

theorem requestExchange_of_free {n : Nat} (hn : n ≤ rxCap) (hb : s.linkBusy = false) (owner : Caller) (c : Byte) :
    requestExchange owner c n s = grantExchange owner c n s := by
  simp [requestExchange, hb, Nat.not_lt.mpr hn]

theorem execCmdframe_of_busy (hb : s.linkBusy = true) (c : Byte) :
    execCmdframe c s = .next { s with held := s.held ++ [.frame c] } := by
  simp [execCmdframe, hb]

theorem execCmdframe_of_free (hb : s.linkBusy = false) (c : Byte) : execCmdframe c s = .next (s.buildFrame c) := by
  simp [execCmdframe, hb]

/-! ## The callers held and the result of POLL's exchange -/

/-- `t` holds exactly these callers, and if `s` had the result of a POLL's exchange, so has `t`. -/
structure State.Leaves (s t : State) (held : List Waiter) : Prop where
  held : t.held = held
  result : s.pollResult.isSome = true → t.pollResult.isSome = true

theorem State.Leaves.refl (s : State) : s.Leaves s s.held := ⟨rfl, id⟩

/-- A delivery gives POLL a result or leaves what it has. -/
theorem State.Leaves.deliver {held : List Waiter} (h : s.Leaves t held) (owner : Caller) (r : Option Bytes) :
    s.Leaves (t.deliver owner r) held := by
  cases owner with
  | host => exact { h with }
  | poll => exact ⟨h.held, fun _ => rfl⟩

theorem State.Leaves.afterRead (s : State) (n : Nat) : s.Leaves (s.afterRead n) s.held := by
  constructor <;> simp

theorem State.Leaves.buildFrame (s : State) (c : Byte) : s.Leaves (s.buildFrame c) s.held := by
  constructor <;> simp

theorem grantExchange_leaves {owner : Caller} {c : Byte} {n : Nat} (h : grantExchange owner c n s = .next t) :
    s.Leaves t s.held := by
  obtain ⟨-, ⟨-, rfl⟩ | ⟨-, rfl⟩⟩ := grantExchange_next h
  · exact { State.Leaves.refl s with }
  · exact State.Leaves.deliver (by exact { State.Leaves.refl s with }) owner none

theorem grantWaiter_leaves {w : Waiter} (h : grantWaiter w s = .next t) : s.Leaves t s.held := by
  cases w with
  | exchange owner c n => exact grantExchange_leaves h
  | frame c => cases h; exact State.Leaves.buildFrame s c

theorem phaseOpen_leaves (h : phaseOpen s = .next t) : s.Leaves t s.held := by
  rcases phaseOpen_next h with ⟨-, rfl⟩ | ⟨-, rfl⟩
  · exact { State.Leaves.refl s with }
  · exact State.Leaves.deliver (by exact { State.Leaves.refl s with }) _ _

theorem phaseWrite_leaves (h : phaseWrite s = .next t) : s.Leaves t s.held := by
  rcases phaseWrite_next h with ⟨-, rfl⟩ | ⟨-, rfl⟩ <;> exact { State.Leaves.refl s with }

theorem phaseRead_leaves (h : phaseRead s = .next t) : s.Leaves t s.held := by
  have hread := State.Leaves.afterRead s s.nReg
  rcases phaseRead_next h with ⟨-, rfl⟩ | ⟨bytes, -, -, -, rfl⟩ <;> exact { hread with }

theorem phaseClose_leaves (h : phaseClose s = .next t) : s.Leaves t s.held := by
  obtain ⟨r, ⟨-, -, rfl⟩ | ⟨-, -, rfl⟩⟩ := phaseClose_next h <;>
    exact State.Leaves.deliver (by exact { State.Leaves.refl s with }) _ _

theorem abortPoweron_leaves (s : State) : s.Leaves (abortPoweron s) s.held := by
  unfold abortPoweron
  split <;> exact { State.Leaves.refl s with }

theorem phaseHold_leaves (h : phaseHold s = .next t) : s.Leaves t s.held := by
  rcases phaseHold_next h with ⟨-, rfl⟩ | ⟨-, rfl⟩
  · exact { State.Leaves.refl s with }
  · exact { abortPoweron_leaves (s.afterSleep.emit (.sleep tHoldMs .interrupted)) with }

theorem phaseRestore_leaves (h : phaseRestore s = .next t) : s.Leaves t s.held := by
  rcases phaseRestore_next h with ⟨-, rfl⟩ | ⟨-, rfl⟩ <;> exact { State.Leaves.refl s with }

theorem phaseStep_leaves (h : phaseStep s = .next t) : s.Leaves t s.held := by
  unfold phaseStep at h
  split at h
  · cases h; exact State.Leaves.refl s
  · exact phaseOpen_leaves h
  · exact phaseWrite_leaves h
  · exact phaseRead_leaves h
  · exact phaseClose_leaves h
  · cases h; exact { State.Leaves.refl s with }
  · exact phaseHold_leaves h
  · exact phaseRestore_leaves h

theorem execSetup_leaves {pid : Option Str} (h : execSetup pid s = .next t) : s.Leaves t s.held := by
  obtain ⟨-, ⟨-, rfl⟩ | ⟨port, -, rfl⟩⟩ := execSetup_next h
  · exact { State.Leaves.refl s with }
  · rcases setupPort_cases port { s with portId := some port } with ht | ht <;> rw [ht] <;>
      exact { State.Leaves.refl s with }

theorem State.Leaves.parse (s : State) (str : Str) : s.Leaves (s.parse str) s.held := by
  constructor <;> simp

/-- What an instruction does to the callers held: nothing, or with the lock set it adds one, a POLL only if none is in
progress (R74, R201). -/
def State.LeavesOrHolds (s t : State) : Prop :=
  s.Leaves t s.held ∨
    (s.linkBusy = true ∧ ∃ w : Waiter, (w.isPoll = true → s.pollBusy = false) ∧ s.Leaves t (s.held ++ [w]))

theorem requestExchange_leavesOrHolds {owner : Caller} {c : Byte} {n : Nat} (hp : owner.isPoll = true → s.pollBusy = false)
    {b : Bool} (h : requestExchange owner c n { s with pollBusy := b } = .next t) : s.LeavesOrHolds t := by
  obtain ⟨-, ⟨hb, rfl⟩ | ⟨-, hgrant⟩⟩ := requestExchange_next h
  · exact .inr ⟨hb, .exchange owner c n, hp, rfl, id⟩
  · exact .inl { grantExchange_leaves hgrant with }

theorem execCmdframe_leavesOrHolds {c : Byte} (h : execCmdframe c s = .next t) : s.LeavesOrHolds t := by
  unfold execCmdframe at h
  split at h
  · rename_i hb
    cases h
    exact .inr ⟨hb, .frame c, nofun, rfl, id⟩
  · cases h
    exact .inl (State.Leaves.buildFrame s c)

theorem exec_leavesOrHolds {i : Instr} (h : exec i s = .next t) : s.LeavesOrHolds t := by
  have hresult (r : Result) : s.LeavesOrHolds (s.emit (.result r)) := .inl { State.Leaves.refl s with }
  cases i with
  | cmdframe c => exact execCmdframe_leavesOrHolds h
  | queryDisplay => exact requestExchange_leavesOrHolds (owner := .host) (c := cmdDisplay) (n := respSize) nofun h
  | exchange c n => exact requestExchange_leavesOrHolds (owner := .host) nofun h
  | poll =>
    obtain ⟨hp, hreq⟩ := execPoll_next h
    exact requestExchange_leavesOrHolds (fun _ => hp) hreq
  | setup pid => exact .inl (execSetup_leaves h)
  | poweron =>
    obtain ⟨-, -, rfl⟩ := execPoweron_next h
    exact .inl { State.Leaves.refl s with }
  | parse str => cases h; exact .inl { State.Leaves.parse s str with }
  | respDisplay raw => cases h; exact hresult _
  | getsnapshot => cases h; exact hresult _
  | decode raw => cases h; exact hresult _
  | cmap b => cases h; exact hresult _

/-- Settles O30: at a set lock a request is held, and at a free one an instruction adds no caller to those held. -/
theorem requestsWaitForLock : Obligations.RequestsWaitForLock := by
  refine ⟨fun c n s hn hb => requestExchange_of_busy hn hb .host c,
    fun s hb => requestExchange_of_busy (n := respSize) (by decide) hb .host cmdDisplay,
    fun c s hb => execCmdframe_of_busy hb c, fun i s t hb h => ?_⟩
  obtain hleaves | ⟨hbusy, -⟩ := exec_leavesOrHolds h
  · exact hleaves.held
  · exact absurd (hb.symm.trans hbusy) nofun

/-! ## The grant -/

/-- The grant of the k-th held caller goes on with it on the state in which it waits no longer (R74). -/
theorem runMove_grant {k : Nat} {w : Waiter} (hw : s.held[k]? = some w) :
    runMove (.grant k) s = grantWaiter w { s with held := s.held.eraseIdx k } := by
  simp only [runMove, hw]

/-- A POLL sets `poll_busy` and requests its display query (R201, R202). -/
theorem execPoll_of_free (hb : s.linkBusy = false) (hp : s.pollBusy = true) :
    execPoll { s with pollBusy := false } = grantExchange .poll cmdDisplay respSize s := by
  have hset : ({ s with pollBusy := true } : State) = s := by rw [← hp]
  have hreq := requestExchange_of_free (s := s) (n := respSize) (by decide) hb .poll cmdDisplay
  simp only [execPoll, Bool.false_eq_true, if_false, hset, hreq]

/-- Settles O31: a grant and a request at a free lock are the same operation, and the grants are moves of the block. -/
theorem heldRequestIsGranted : Obligations.HeldRequestIsGranted := by
  refine ⟨fun s k c n hb hn hw => ?host, fun s k hb hp hw => ?poll, fun s k c hb hw => ?frame,
    fun s k hb hk => grant_mem_moves hk hb, fun s w hp hb hq hr hh => ?single,
    fun s k hp hb hq hr h2 hk hpick => ?several⟩
  case host =>
    rw [runMove_grant hw]
    exact (requestExchange_of_free hn (by exact hb) .host c).symm
  case poll =>
    rw [runMove_grant hw]
    exact (execPoll_of_free (s := { s with held := s.held.eraseIdx k }) hb hp).symm
  case frame =>
    rw [runMove_grant hw]
    exact (execCmdframe_of_free (by exact hb) c).symm
  case single =>
    refine step_of_single hp ?_
    rw [moves_of_free hb hq hr, hh]
    rfl
  case several =>
    have hmoves := moves_of_free hb hq hr
    rw [step_of_none hp]
    exact advance_picked (s := s.popPort) (by simp [hmoves, h2]) (by simp [hmoves, hk]) hpick

end Sys2Proof.Machine
end

section
/-!
SUPPORT. Proofs of the statements of spec/20_memory.md, the release of the link lock: what a step does to the callers held and to
an exchange in progress, then the bounded release, then weakly fair executions.
-/

namespace Sys2Proof.Machine

variable {s t : State}

/-! ## What a step does to the callers held -/

/-- What a step that goes on has done at the lock: nothing, a caller is held, a held caller has gone on, or POLL has ended. -/
inductive State.StepAtLock (s t : State) : Prop
  | stay (leaves : s.Leaves t s.held)
  | hold (w : Waiter) (poll : w.isPoll = true → s.pollBusy = false) (leaves : s.Leaves t (s.held ++ [w]))
  | grant (k : Nat) (w : Waiter) (was : s.held[k]? = some w) (leaves : s.Leaves t (s.held.eraseIdx k))
  | commit (held : t.held = s.held) (ended : t.pollBusy = false)

/-- A move of the block, taken with whatever the port and the answers to come have become. -/
theorem runMove_atLock {m : Move} {hostIn : List (Option Request)} {env : Inputs} {draws : Nat} (hm : m ∈ s.moves)
    (h : runMove m { s with hostIn := hostIn, env := env, draws := draws } = .next t) : s.StepAtLock t := by
  rcases mem_moves hm with ⟨rfl, -⟩ | ⟨r, rfl, -, -⟩ | ⟨k, w, rfl, hw, -⟩
  · exact .stay { phaseStep_leaves h with }
  · cases h
    exact .commit (by simp) (by simp)
  · rw [runMove_grant (by exact hw)] at h
    exact .grant k w hw { grantWaiter_leaves h with }

/-- Every step that goes on does one of these at the lock. -/
theorem step_atLock (h : step s = .next t) : s.StepAtLock t := by
  rcases step_next h with ⟨r, i, -, -, hexec⟩ | ⟨bytes, -, rfl⟩ | ⟨-, -, rfl⟩ | ⟨-, m, u, hm, hu, hrun⟩
  · obtain hleaves | ⟨-, w, hp, hleaves⟩ := exec_leavesOrHolds hexec
    · exact .stay { hleaves with }
    · exact .hold w hp { hleaves with }
  · exact .stay { State.Leaves.refl s with }
  · exact .stay { State.Leaves.refl s with }
  · rcases hu with rfl | rfl
    · exact runMove_atLock hm hrun
    · exact runMove_atLock hm hrun

/-- While a POLL is in progress no other is held. -/
theorem State.StepAtLock.countP_le (h : s.StepAtLock t) (hp : s.pollBusy = true) :
    t.held.countP Waiter.isPoll ≤ s.held.countP Waiter.isPoll := by
  cases h with
  | stay leaves => rw [leaves.held]
  | hold w poll leaves =>
    have hw : w.isPoll = false := by
      by_contra hw
      exact absurd (hp.symm.trans (poll (by simpa using hw))) nofun
    simp [leaves.held, hw]
  | grant k w was leaves => rw [leaves.held]; exact (List.eraseIdx_sublist ..).countP_le
  | commit held ended => rw [held]

/-- A held POLL of which there are fewer after a step has gone on. -/
theorem State.StepAtLock.countP_lt (h : s.StepAtLock t) {w : Waiter} (hw : w.isPoll = true)
    (hlt : t.held.count w < s.held.count w) : t.held.countP Waiter.isPoll < s.held.countP Waiter.isPoll := by
  cases h with
  | stay leaves => simp [leaves.held] at hlt
  | hold v poll leaves => simp [leaves.held] at hlt
  | grant k v was leaves =>
    have hcount : (s.held.eraseIdx k).count w + (v == w).toNat = s.held.count w := countP_eraseIdx was
    have hpoll := countP_eraseIdx (p := Waiter.isPoll) was
    rw [leaves.held] at hlt ⊢
    cases hv : v == w with
    | false => simp only [hv, Bool.toNat_false] at hcount; omega
    | true =>
      rw [eq_of_beq hv, hw, Bool.toNat_true] at hpoll
      omega
  | commit held ended => simp [held] at hlt

/-- The result of POLL's exchange stands until POLL ends. -/
theorem State.StepAtLock.result (h : s.StepAtLock t) (hr : s.pollResult.isSome = true) (hp : t.pollBusy = true) :
    t.pollResult.isSome = true := by
  cases h with
  | stay leaves => exact leaves.result hr
  | hold w poll leaves => exact leaves.result hr
  | grant k w was leaves => exact leaves.result hr
  | commit held ended => exact absurd (ended.symm.trans hp) nofun

/-! ## The release of the lock -/

/-- How many phases an exchange still has before it. -/
def Phase.phasesLeft : Phase → Nat
  | .xOpen => 4
  | .xWrite => 3
  | .xRead => 2
  | .xClose => 1
  | .idle | .pActive | .pHold | .pRestore => 0

theorem Phase.phasesLeft_eq_zero {q : Phase} : q.phasesLeft = 0 ↔ q.isExchange = false := by
  cases q <;> decide

theorem Phase.phasesLeft_le (q : Phase) : q.phasesLeft ≤ 4 := by
  cases q <;> decide

/-- The lock is free exactly when no phase of an exchange is left (R25). -/
theorem State.Inv.free_iff (h : s.Inv) : s.linkBusy = false ↔ s.seq.phasesLeft = 0 := by
  rw [h.lock, Phase.phasesLeft_eq_zero]

theorem State.Inv.isExchange_of_busy (h : s.Inv) (hb : s.linkBusy = true) : s.seq.isExchange = true :=
  h.lock ▸ hb

/-- A phase of an exchange goes on with fewer phases left, or the link has answered outside its contract. -/
def State.NearsRelease (s : State) (o : Host.Outcome State Fault Refusal) : Prop :=
  (∃ t, o = .next t ∧ t.seq.phasesLeft < s.seq.phasesLeft ∧ t.hostIn = s.hostIn) ∨
    o = .refused .linkAnswerOutsideContract

theorem phaseOpen_nearsRelease (hq : s.seq = .xOpen) : s.NearsRelease (phaseOpen s) := by
  unfold phaseOpen
  cases s.openAnswer <;> exact .inl ⟨_, rfl, by simp [hq, Phase.phasesLeft], by simp [State.afterOpen_eq_drawn]⟩

theorem phaseWrite_nearsRelease (hq : s.seq = .xWrite) : s.NearsRelease (phaseWrite s) := by
  unfold phaseWrite
  cases s.writeAnswer <;> exact .inl ⟨_, rfl, by simp [hq, Phase.phasesLeft], by simp [State.afterWrite_eq_drawn]⟩

theorem phaseRead_nearsRelease (hq : s.seq = .xRead) (hn : s.nReg ≤ rxCap) : s.NearsRelease (phaseRead s) := by
  unfold phaseRead
  cases s.readAnswer s.nReg with
  | none => exact .inl ⟨_, rfl, by simp [hq, Phase.phasesLeft], by simp⟩
  | some bytes =>
    by_cases hlen : bytes.length = s.nReg
    · exact .inl ⟨_, (if_neg (not_not_intro hlen)).trans (if_neg (Nat.not_lt.mpr hn)), by simp [hq, Phase.phasesLeft],
        by simp⟩
    · exact .inr (if_pos hlen)

theorem phaseClose_nearsRelease (hq : s.seq = .xClose) (hn : s.rxLen ≤ rxCap) : s.NearsRelease (phaseClose s) := by
  unfold phaseClose
  cases s.xOk
  · exact .inl ⟨_, rfl, by simp [hq, Phase.phasesLeft], by simp⟩
  · exact .inl ⟨_, (if_pos rfl).trans (if_neg (Nat.not_lt.mpr hn)), by simp [hq, Phase.phasesLeft], by simp⟩

/-- Every phase of an exchange nears its release (R126 to R129). -/
theorem State.Inv.phaseStep_nearsRelease (h : s.Inv) (hb : s.linkBusy = true) : s.NearsRelease (phaseStep s) := by
  have hx : s.seq.isExchange = true := h.isExchange_of_busy hb
  unfold phaseStep
  split <;> rename_i hq
  · exact absurd (hq ▸ hx) nofun
  · exact phaseOpen_nearsRelease hq
  · exact phaseWrite_nearsRelease hq
  · exact phaseRead_nearsRelease hq h.sizeInRange
  · exact phaseClose_nearsRelease hq h.lengthInRange
  · exact absurd (hq ▸ hx) nofun
  · exact absurd (hq ▸ hx) nofun
  · exact absurd (hq ▸ hx) nofun

/-- With nothing presented a step during an exchange is its next phase (R36, R74). -/
theorem State.Inv.step_of_busy (h : s.Inv) (hb : s.linkBusy = true) (hp : s.presented = none) :
    step s = phaseStep s.popPort := by
  have hq : s.seq ≠ .idle := fun hq => absurd (hq ▸ h.isExchange_of_busy hb) nofun
  exact step_of_single hp (moves_of_exchange hb (Phase.isIdle_eq_false.mpr hq))

/-- An exchange with no request to come ends within its phases (R74, R129). -/
theorem released_within_phasesLeft {n : Nat} (h : s.Inv) (hn : s.seq.phasesLeft ≤ n) (hin : s.hostIn = []) :
    ∃ k ≤ n, (∃ t : State, Sys2Proof.core.run k s = .next t ∧ t.linkBusy = false) ∨
      Sys2Proof.core.run k s = .refused .linkAnswerOutsideContract := by
  induction n generalizing s with
  | zero => exact ⟨0, le_rfl, .inl ⟨s, rfl, h.free_iff.mpr (Nat.le_zero.mp hn)⟩⟩
  | succ n ih =>
    cases hb : s.linkBusy with
    | false => exact ⟨0, Nat.zero_le _, .inl ⟨s, rfl, hb⟩⟩
    | true =>
      have hstep : step s = phaseStep s.popPort := h.step_of_busy hb (by simp [State.presented, hin])
      rcases h.popPort.phaseStep_nearsRelease hb with ⟨t, ht, hlt, hin'⟩ | hrefused
      · have hnext : step s = .next t := hstep.trans ht
        rw [State.popPort_seq] at hlt
        obtain ⟨k, hk, hrun⟩ := ih (stepKeepsInvariant s t h hnext) (by omega) (by simp [hin', hin])
        exact ⟨k + 1, by omega, by rwa [core_run_next hnext]⟩
      · exact ⟨1, by omega, .inr (core_run_refused (hstep.trans hrefused) 0)⟩

/-! ## Unending executions -/

/-- What a caller asks for during an exchange leaves the exchange in its phase (R74). -/
theorem exec_seq_of_busy {i : Instr} (h : s.Inv) (hb : s.linkBusy = true) (ht : exec i s = .next t) : t.seq = s.seq := by
  have hx : s.seq.isExchange = true := h.isExchange_of_busy hb
  have hrequest {owner : Caller} {c : Byte} {n : Nat} {b : Bool}
      (hreq : requestExchange owner c n { s with pollBusy := b } = .next t) : t.seq = s.seq := by
    obtain ⟨-, ⟨-, rfl⟩ | ⟨hfree, -⟩⟩ := requestExchange_next hreq
    · rfl
    · exact absurd (hb.symm.trans hfree) nofun
  cases i with
  | cmdframe c => cases (execCmdframe_of_busy hb c).symm.trans ht; rfl
  | queryDisplay => exact hrequest (owner := .host) (c := cmdDisplay) (n := respSize) ht
  | exchange c n => exact hrequest (owner := .host) ht
  | poll => exact hrequest (execPoll_next ht).2
  | setup pid => exact absurd ((execSetup_next ht).1 ▸ hx) nofun
  | poweron => exact absurd ((execPoweron_next ht).2.1 ▸ hx) nofun
  | parse str => cases ht; simp
  | respDisplay raw => cases ht; rfl
  | getsnapshot => cases ht; rfl
  | decode raw => cases ht; rfl
  | cmap b => cases ht; rfl

/-- A step during an exchange leaves it in its phase, or is the block's own and leaves fewer phases. -/
theorem step_phasesLeft (h : s.Inv) (hb : s.linkBusy = true) (ht : step s = .next t) :
    t.seq.phasesLeft ≤ s.seq.phasesLeft ∧ (s.presented = none → t.seq.phasesLeft < s.seq.phasesLeft) := by
  cases hp : s.presented with
  | none =>
    rw [h.step_of_busy hb hp] at ht
    rcases h.popPort.phaseStep_nearsRelease hb with ⟨u, hu, hlt, -⟩ | hrefused
    · cases hu.symm.trans ht
      exact ⟨hlt.le, fun _ => hlt⟩
    · exact absurd (hrefused.symm.trans ht) nofun
  | some r =>
    refine ⟨?_, nofun⟩
    rcases step_next ht with ⟨r, i, -, -, hexec⟩ | ⟨bytes, -, rfl⟩ | ⟨hnone, -⟩ | ⟨hnone, -⟩
    · rw [exec_seq_of_busy h.popPort hb hexec, State.popPort_seq]
    · exact le_rfl
    · exact absurd (hp.symm.trans hnone) nofun
    · exact absurd (hp.symm.trans hnone) nofun

variable {tr : Nat → State}

/-- What the host and the environment add between two steps does not concern the invariant. -/
theorem IsExecution.inv (hx : IsExecution tr) (h : (tr 0).Inv) (k : Nat) : (tr k).Inv := by
  induction k with
  | zero => exact h
  | succ k ih =>
    obtain ⟨t, requests, env, hstep, htr⟩ := hx k
    rw [htr]
    exact { stepKeepsInvariant _ t ih hstep with }

/-- What a step of an execution does at the lock. -/
theorem IsExecution.atLock (hx : IsExecution tr) (k : Nat) : (tr k).StepAtLock (tr (k + 1)) := by
  obtain ⟨t, requests, env, hstep, htr⟩ := hx k
  rw [htr]
  cases step_atLock hstep with
  | stay leaves => exact .stay { leaves with }
  | hold w poll leaves => exact .hold w poll { leaves with }
  | grant k w was leaves => exact .grant k w was { leaves with }
  | commit held ended => exact .commit held ended

/-- What a step of an execution does to an exchange in progress. -/
theorem IsExecution.phasesLeft (hx : IsExecution tr) (h : (tr 0).Inv) {k : Nat} (hb : (tr k).linkBusy = true) :
    (tr (k + 1)).seq.phasesLeft ≤ (tr k).seq.phasesLeft ∧
      ((tr k).presented = none → (tr (k + 1)).seq.phasesLeft < (tr k).seq.phasesLeft) := by
  obtain ⟨t, requests, env, hstep, htr⟩ := hx k
  have hleft := step_phasesLeft (hx.inv h k) hb hstep
  rwa [htr]

/-- With steps of its own again and again the block ends every exchange: a lock set for ever would leave ever fewer phases
(R74, R276). -/
theorem IsExecution.released (hx : IsExecution tr) (h : (tr 0).Inv)
    (hown : ∀ k, ∃ j, k ≤ j ∧ (tr j).presented = none) (k : Nat) : ∃ j, k ≤ j ∧ (tr j).linkBusy = false := by
  by_contra hnever
  have hbusy (j : Nat) (hj : k ≤ j) : (tr j).linkBusy = true := by
    by_contra hb
    exact hnever ⟨j, hj, by simpa using hb⟩
  have hmono {i j : Nat} (hi : k ≤ i) (hij : i ≤ j) : (tr j).seq.phasesLeft ≤ (tr i).seq.phasesLeft := by
    induction j, hij using Nat.le_induction with
    | base => exact le_rfl
    | succ j hij ih => exact (hx.phasesLeft h (hbusy j (hi.trans hij))).1.trans ih
  have hfewer (n i : Nat) (hi : k ≤ i) : n ≤ (tr i).seq.phasesLeft := by
    induction n generalizing i with
    | zero => exact Nat.zero_le _
    | succ n ih =>
      obtain ⟨j, hij, hpresented⟩ := hown i
      have hlt := (hx.phasesLeft h (hbusy j (hi.trans hij))).2 hpresented
      have hnext := ih (j + 1) (by omega)
      have hle := hmono hi hij
      omega
  have hmany := hfewer 5 k le_rfl
  have hfew := (tr k).seq.phasesLeft_le
  omega

/-- A POLL that stays in progress is held no longer from some step on: the one held POLL is granted (R74, R202). -/
theorem IsExecution.poll_leaves_lock (hx : IsExecution tr) (h : (tr 0).Inv) (hfair : WeaklyFair tr) {k : Nat}
    (hbusy : ∀ j, k ≤ j → (tr j).pollBusy = true) : ∃ i, k ≤ i ∧ (tr i).held.countP Waiter.isPoll = 0 := by
  cases hzero : (tr k).held.countP Waiter.isPoll with
  | zero => exact ⟨k, le_rfl, hzero⟩
  | succ n =>
    obtain ⟨w, hw, hpoll⟩ := List.countP_pos_iff.mp (by rw [hzero]; exact Nat.succ_pos n)
    obtain ⟨j, hj, hlt⟩ := hfair.granted k w hw
    have hone := (hx.inv h j).pollOnce
    rw [State.pollPlaces, hbusy j hj, Bool.toNat_true] at hone
    have hgone := (hx.atLock j).countP_lt hpoll hlt
    exact ⟨j + 1, by omega, by omega⟩

/-- Weak fairness ends every POLL: once it is held no longer and the lock is free it has its result, which stands until the
commit step (R74, R207, R276). -/
theorem IsExecution.poll_ends (hx : IsExecution tr) (h : (tr 0).Inv) (hfair : WeaklyFair tr) (k : Nat) :
    ∃ j, k ≤ j ∧ (tr j).pollBusy = false := by
  by_contra hnever
  have hbusy (j : Nat) (hj : k ≤ j) : (tr j).pollBusy = true := by
    by_contra hb
    exact hnever ⟨j, hj, by simpa using hb⟩
  obtain ⟨i, hi, hunheld⟩ := hx.poll_leaves_lock h hfair hbusy
  have hstay (j : Nat) (hj : i ≤ j) : (tr j).held.countP Waiter.isPoll = 0 := by
    induction j, hj using Nat.le_induction with
    | base => exact hunheld
    | succ j hj ih => exact Nat.le_zero.mp (ih ▸ (hx.atLock j).countP_le (hbusy j (hi.trans hj)))
  obtain ⟨j, hj, hfree⟩ := hx.released h hfair.ownSteps i
  have hresult : (tr j).pollResult.isSome = true := by
    have hone := (hx.inv h j).pollOnce
    rw [State.pollPlaces, State.pollOwnsExchange, (hx.inv h j).not_isExchange_of_free hfree, hstay j hj,
      hbusy j (hi.trans hj)] at hone
    simpa using hone
  have hstands (m : Nat) (hm : j ≤ m) : (tr m).pollResult.isSome = true := by
    induction m, hm using Nat.le_induction with
    | base => exact hresult
    | succ m hm ih => exact (hx.atLock m).result ih (hbusy (m + 1) (by omega))
  obtain ⟨m, hm, hnone⟩ := hfair.commits j hresult
  have hsome := hstands m hm
  rw [hnone] at hsome
  exact absurd hsome nofun

/-- Settles O55: an exchange has at most four phases, each step of the block's own leaves fewer, and a POLL whose exchange has
returned has its commit step to come. -/
theorem lockIsAlwaysReleased : Obligations.LockIsAlwaysReleased :=
  ⟨fun s h _ hin => released_within_phasesLeft h s.seq.phasesLeft_le hin, fun _ hx h hfair =>
    ⟨fun k _ => hx.released h hfair.ownSteps k, fun k _ => hx.poll_ends h hfair k⟩⟩

end Sys2Proof.Machine
end

section
/-!
SUPPORT. Proofs of the statements of spec/30_encoding.md, the encodings: what a wire frame decodes to, said once, then the
round trips and the patterns.
-/

namespace Sys2Proof.Machine

/-! ## The marker of a response -/

theorem markOk_iff {raw : Bytes} : 3 ≤ raw.length ∧ markOk raw = true ↔ raw.take 3 = [0xAA, 0xAA, 0xAA] := by
  match raw with
  | [] | [_] | [_, _] => simp
  | _ :: _ :: _ :: _ => simp [markOk, byteAt, markByte, and_assoc]

theorem startsWithMark_iff {bytes : Bytes} : startsWithMark bytes = true ↔ bytes.take 3 = [0xAA, 0xAA, 0xAA] := by
  rw [← markOk_iff]
  simp [startsWithMark, markOk, and_assoc]

/-- A well-formed response is of 371 bytes, the marker first (R90, R93). -/
theorem wellFormed_respDisplay_iff {raw : Bytes} :
    (Instr.respDisplay raw).WellFormed ↔ raw.length = 371 ∧ raw.take 3 = [0xAA, 0xAA, 0xAA] := by
  have hchecks : (Instr.respDisplay raw).WellFormed ↔ raw.length = respSize ∧ markOk raw = true := by
    simp [Instr.WellFormed, Instr.wellFormed, markOk, and_assoc]
  rw [hchecks, ← markOk_iff, respSize]
  exact and_congr_right fun hlen => (and_iff_right (by omega)).symm

/-! ## What a wire frame decodes to -/

/-- The row a command frame reads as: the display query, or CMDFRAME (R91, R106; log 10). -/
def commandOf (c : Byte) : Instr := if c = cmdDisplay then .queryDisplay else .cmdframe c

theorem commandOf_of_ne {c : Byte} (h : c ≠ cmdDisplay) : commandOf c = .cmdframe c := if_neg h

theorem encode_commandOf (c : Byte) : encode (commandOf c) = .wire (frameBytes c) := by
  unfold commandOf
  split
  · subst c; rfl
  · rfl

theorem commandOf_wellFormed (c : Byte) : (commandOf c).WellFormed := by
  unfold commandOf
  split <;> rfl

theorem respDisplay_ne_commandOf (raw : Bytes) (c : Byte) : .respDisplay raw ≠ commandOf c := by
  unfold commandOf
  split <;> nofun

/-- Six bytes decode exactly when they are `55 55 55 01 c c` (R91). -/
theorem decodeCommand_ok_iff {b0 b1 b2 b3 b4 b5 : Byte} {i : Instr} :
    decodeCommand b0 b1 b2 b3 b4 b5 = .ok i ↔ [b0, b1, b2, b3, b4, b5] = frameBytes b4 ∧ i = commandOf b4 := by
  by_cases hframe : [b0, b1, b2, b3, b4, b5] = frameBytes b4
  · have hdecode : decodeCommand b0 b1 b2 b3 b4 b5 = .ok (commandOf b4) := by
      simp only [frameBytes, List.cons.injEq, true_and, and_true] at hframe
      obtain ⟨rfl, rfl, rfl, rfl, rfl⟩ := hframe
      simp [decodeCommand, commandOf, apply_ite]
    simp [hframe, hdecode, eq_comm]
  · simp only [hframe, false_and, iff_false]
    intro hdecode
    unfold decodeCommand at hdecode
    split at hdecode
    · cases hdecode
    rename_i hsync
    split at hdecode
    · cases hdecode
    rename_i hlength
    split at hdecode
    · cases hdecode
    rename_i htrailer
    simp only [not_or, not_not] at hsync hlength htrailer
    exact hframe (by simp [frameBytes, hsync, hlength, htrailer])

theorem decodeWire_of_mark {bytes : Bytes} (h : bytes.take 3 = [0xAA, 0xAA, 0xAA]) {i : Instr} :
    decodeWire bytes = .ok i ↔ bytes.length = 371 ∧ i = .respDisplay bytes := by
  unfold decodeWire
  rw [if_pos (startsWithMark_iff.mpr h), respSize]
  rcases Nat.lt_trichotomy bytes.length 371 with hlt | heq | hgt
  · simp [hlt, hlt.ne]
  · simp [heq, eq_comm]
  · simp [hgt, hgt.not_gt, hgt.ne']

theorem decodeWire_of_not_mark {bytes : Bytes} (h : bytes.take 3 ≠ [0xAA, 0xAA, 0xAA]) {i : Instr} :
    decodeWire bytes = .ok i ↔ ∃ c, bytes = frameBytes c ∧ i = commandOf c := by
  unfold decodeWire
  rw [if_neg (mt startsWithMark_iff.mp h)]
  split
  · rename_i b0 b1 b2 b3 b4 b5
    rw [decodeCommand_ok_iff]
    constructor
    · exact fun hb => ⟨b4, hb⟩
    · rintro ⟨c, hb, rfl⟩
      obtain rfl : b4 = c := by simp_all [frameBytes]
      exact ⟨hb, rfl⟩
  · rename_i hsix
    constructor
    · nofun
    · rintro ⟨c, rfl, -⟩
      exact (hsix _ _ _ _ _ _ rfl).elim

/-- What a wire frame decodes to: a response of its own bytes, or the row of a command frame; nothing else decodes. -/
theorem decodeWire_ok_iff {bytes : Bytes} {i : Instr} :
    decodeWire bytes = .ok i ↔
      (i = .respDisplay bytes ∧ i.WellFormed) ∨ ∃ c, bytes = frameBytes c ∧ i = commandOf c := by
  by_cases h : bytes.take 3 = [0xAA, 0xAA, 0xAA]
  · have hno (c : Byte) : bytes ≠ frameBytes c := by
      rintro rfl
      simp [frameBytes, syncByte] at h
    rw [decodeWire_of_mark h]
    constructor
    · rintro ⟨hlen, rfl⟩
      exact .inl ⟨rfl, wellFormed_respDisplay_iff.mpr ⟨hlen, h⟩⟩
    · rintro (⟨rfl, hwf⟩ | ⟨c, hc, -⟩)
      · exact ⟨(wellFormed_respDisplay_iff.mp hwf).1, rfl⟩
      · exact absurd hc (hno c)
  · rw [decodeWire_of_not_mark h]
    refine (or_iff_right ?_).symm
    rintro ⟨rfl, hwf⟩
    exact h (wellFormed_respDisplay_iff.mp hwf).2

theorem decode_frameBytes (c : Byte) : decode (.wire (frameBytes c)) = .ok (commandOf c) :=
  decodeWire_ok_iff.mpr (.inr ⟨c, rfl, rfl⟩)

/-! ## The round trips -/

/-- Settles O1, by the rows: a host operation keeps its operands in its own lanes, a frame reads as its row. -/
theorem decodeOfEncodeGivesBack : Obligations.DecodeOfEncodeGivesBack := by
  intro i hwf
  refine ⟨fun hne => ?_, fun heq => ?_⟩
  · cases i with
    | cmdframe c =>
      have hc : c ≠ cmdDisplay := fun h => hne (h ▸ rfl)
      exact (decode_frameBytes c).trans (congrArg _ (commandOf_of_ne hc))
    | queryDisplay => exact decode_frameBytes cmdDisplay
    | respDisplay raw => exact decodeWire_ok_iff.mpr (.inl ⟨rfl, hwf⟩)
    | setup pid => rfl
    | exchange c n => rfl
    | poweron => rfl
    | poll => rfl
    | getsnapshot => rfl
    | decode raw => rfl
    | parse s => rfl
    | cmap b => rfl
  · subst heq
    exact decode_frameBytes cmdDisplay

/-- Settles O2: a frame that decodes is a response, kept whole as the operand, or the command frame of its row. -/
theorem wireFramesHaveOneMeaning : Obligations.WireFramesHaveOneMeaning := by
  intro bytes i h
  rcases decodeWire_ok_iff.mp h with ⟨rfl, hwf⟩ | ⟨c, rfl, rfl⟩
  · exact ⟨rfl, hwf⟩
  · exact ⟨encode_commandOf c, commandOf_wellFormed c⟩

/-! ## The patterns -/

/-- The last byte of a pattern is its lowest (R91). -/
theorem bytesOfNat_succ (k w : Nat) (b : Byte) (acc : Bytes) :
    bytesOfNat (k + 1) (256 * w + b.toNat) acc = bytesOfNat k w (b :: acc) := by
  have hb : b.toNat < 256 := b.isLt
  have hhigh : (256 * w + b.toNat) / 256 = w := by omega
  have hlow : BitVec.ofNat 8 (256 * w + b.toNat) = b := BitVec.eq_of_toNat_eq (by simp [hb])
  rw [bytesOfNat, hhigh, hlow]

/-- The bits of a command frame as the table numbers them (R91). -/
theorem requestOfTableWord_command (c : Byte) :
    requestOfTableWord 48 (0x555555010000 + 256 * c.toNat + c.toNat) = .wire (frameBytes c) := by
  have hword : 0x555555010000 + 256 * c.toNat + c.toNat = 256 * (256 * 0x55555501 + c.toNat) + c.toNat := by omega
  rw [requestOfTableWord, if_neg (by omega), hword]
  exact congrArg Request.wire (by rw [bytesOfNat_succ, bytesOfNat_succ]; rfl)

/-- Settles O4: a frame reads as a command frame's row exactly when it is one. -/
theorem commandFramePattern : Obligations.CommandFramePattern := by
  refine ⟨fun c => rfl, requestOfTableWord_command, fun bytes => ⟨?_, ?_⟩⟩
  · rintro (⟨c, h⟩ | h)
    all_goals
      rcases decodeWire_ok_iff.mp h with ⟨hresp, -⟩ | ⟨c, hbytes, -⟩
      · cases hresp
      · exact ⟨c, hbytes⟩
  · rintro ⟨c, rfl⟩
    by_cases hc : c = cmdDisplay
    · subst hc
      exact .inr (decode_frameBytes cmdDisplay)
    · exact .inl ⟨c, (decode_frameBytes c).trans (congrArg _ (commandOf_of_ne hc))⟩

/-- Settles O5: a frame that reads as a response is its own operand, and well-formed. -/
theorem responseFramePattern : Obligations.ResponseFramePattern := by
  intro bytes
  have hdecode (hlen : bytes.length = 371) (hmark : bytes.take 3 = [0xAA, 0xAA, 0xAA]) :
      decode (.wire bytes) = .ok (.respDisplay bytes) :=
    (decodeWire_of_mark hmark).mpr ⟨hlen, rfl⟩
  refine ⟨⟨?_, fun ⟨hlen, hmark⟩ => ⟨bytes, hdecode hlen hmark⟩⟩, hdecode⟩
  rintro ⟨raw, h⟩
  rcases decodeWire_ok_iff.mp h with ⟨hraw, hwf⟩ | ⟨c, -, hrow⟩
  · obtain rfl : raw = bytes := by injection hraw
    exact wellFormed_respDisplay_iff.mp hwf
  · exact absurd hrow (respDisplay_ne_commandOf raw c)

/-- Settles O3: all eight codes are rows of R96. -/
theorem allHostCodesAssigned : Obligations.AllHostCodesAssigned :=
  fun _ => ⟨rfl, rfl, rfl, rfl, rfl, rfl, rfl, rfl, fun _ => ⟨_, rfl⟩⟩

/-- Settles O6, by evaluation of the decoder on the words. -/
theorem specWordsDecode : Obligations.SpecWordsDecode :=
  ⟨rfl, rfl, rfl, rfl, rfl, rfl, rfl, rfl, rfl, rfl⟩

end Sys2Proof.Machine
end

section
/-!
SUPPORT. Proofs of the statements of spec/30_encoding.md, the canonical string: its form, its lengths, and what a well-formed
response decodes to.
-/

namespace Sys2Proof.Machine

/-! ## The form -/

/-- A marked response that is long enough decodes to its canonical string (R160). -/
theorem decodeResponse_of_mark {raw : Bytes} (hlen : 371 ≤ raw.length) (hmark : raw.take 3 = [0xAA, 0xAA, 0xAA])
    (p : Params) : decodeResponse p (some raw) = .ok (canonical p raw) := by
  obtain ⟨hthree, hok⟩ := markOk_iff.mpr hmark
  have hcut : ¬ raw.length < respSize := Nat.not_lt.mpr hlen
  simp [decodeResponse, hok, Nat.not_lt.mpr hthree, hcut]

/-- The bytes at consecutive offsets, all of them inside the response. -/
theorem map_byteAt_range {raw : Bytes} {base n : Nat} (h : base + n ≤ raw.length) :
    (List.range n).map (fun c => byteAt raw (base + c)) = (raw.drop base).take n := by
  apply List.ext_getElem
  · simp; omega
  · intro c hc _
    have hin : base + c < raw.length := by simp at hc; omega
    simp [byteAt, hin]

/-- Row r is the 40 glyph strings of its bytes, in column order (R156). -/
theorem rowText_eq {raw : Bytes} {r : Nat} (h : 9 + 40 * r + 40 ≤ raw.length) (p : Params) :
    rowText p raw r = ((raw.drop (9 + 40 * r)).take 40).flatMap p.glyph := by
  rw [← map_byteAt_range h, List.flatMap_map]
  rfl

/-- The segment of the attributes is the 40 decimal tokens of its bytes, in column order (R158). -/
theorem attrSegment_eq {raw : Bytes} (h : 369 ≤ raw.length) :
    attrSegment raw = join [';'] (((raw.drop 329).take 40).map dec) := by
  rw [← map_byteAt_range (by omega), List.map_map]
  rfl

/-- Settles O12: the ten fields joined, each read off the response's bytes. -/
theorem canonicalStringForm : Obligations.CanonicalStringForm := by
  intro p raw hlen hmark row hrow
  have hfield (k : Nat) (hk : k < 8) : rowText p raw k = row k := by
    rw [rowText_eq (by omega), hrow k hk]
  rw [decodeResponse_of_mark hlen hmark, ← attrSegment_eq (by omega)]
  simp [canonical, canonFields, rows, List.range_succ, join, hfield, ledSegment, byteAt, ledOff]

/-! ## The lengths -/

/-- A join has the characters of its pieces, and a separator at each joint (R11). -/
theorem length_join (t : Str) {ps : List Str} (h : ps ≠ []) :
    (join t ps).length = (ps.map List.length).sum + (ps.length - 1) * t.length := by
  induction ps with
  | nil => exact absurd rfl h
  | cons x ps ih =>
    cases ps with
    | nil => simp [join]
    | cons y ps =>
      rw [join_cons t x (List.cons_ne_nil _ _), List.length_append, List.length_append, ih (List.cons_ne_nil _ _)]
      simp
      ring

theorem ledSegment_length (raw : Bytes) : (ledSegment raw).length = 8 := rfl

theorem rowText_length (p : Params) (raw : Bytes) (r : Nat) :
    (rowText p raw r).length = ((List.range 40).map fun c => (p.glyph (byteAt raw (9 + 40 * r + c))).length).sum := by
  rw [rowText, List.length_flatMap]
  rfl

theorem rowText_length_le {p : Params} (h : ∀ b, (p.glyph b).length ≤ 2) (raw : Bytes) (r : Nat) :
    (rowText p raw r).length ≤ 80 := by
  rw [rowText_length]
  refine (List.sum_le_card_nsmul _ 2 ?_).trans (by simp)
  simp [h]

/-- The segment of the attributes is 40 tokens of 1 to 3 characters and 39 semicolons (R158, R164). -/
theorem attrSegment_length (raw : Bytes) : 79 ≤ (attrSegment raw).length ∧ (attrSegment raw).length ≤ 159 := by
  have htoken : ∀ n ∈ ((List.range attrN).map (attrToken raw)).map List.length, 1 ≤ n ∧ n ≤ 3 := by
    simp only [List.forall_mem_map]
    intro c _
    obtain ⟨-, hlow, hhigh, -⟩ := decimalNumeralOfByte (byteAt raw (attrOffset c))
    exact ⟨hlow, hhigh⟩
  have hlow := List.card_nsmul_le_sum _ 1 fun n hn => (htoken n hn).1
  have hhigh := List.sum_le_card_nsmul _ 3 fun n hn => (htoken n hn).2
  rw [attrSegment, length_join _ (by simp [attrN])]
  simp only [List.length_map, List.length_range, smul_eq_mul] at hlow hhigh ⊢
  simp only [attrN, attrSep, List.length_singleton] at hlow hhigh ⊢
  omega

/-- The canonical string is its ten fields and nine separators (R97). -/
theorem canonical_length (p : Params) (raw : Bytes) :
    (canonical p raw).length = 8 + ((List.range 8).map fun r => (rowText p raw r).length).sum + (attrSegment raw).length +
      9 * p.sep.length := by
  rw [canonical, length_join _ (by simp [canonFields])]
  simp [canonFields, rows, ledSegment_length, Function.comp_def, Nat.add_assoc]

/-- Settles O13: a row is 40 glyph strings, a token 1 to 3 characters, and a join has its pieces' characters. -/
theorem canonicalStringLengths : Obligations.CanonicalStringLengths := by
  intro p raw _ hglyph
  obtain ⟨hlow, hhigh⟩ := attrSegment_length raw
  have hrows : ((List.range 8).map fun r => (rowText p raw r).length).sum ≤ 640 :=
    (List.sum_le_card_nsmul _ 80 (by simp [rowText_length_le hglyph])).trans (by simp)
  refine ⟨fun r _ => ⟨rowText_length_le hglyph raw r, fun hone => ?_⟩, hlow, hhigh, ?_, ?_⟩
  · rw [rowText_length, List.sum_eq_card_nsmul _ 1 (by simpa [byteAt] using hone)]
    simp
  · rw [canonical_length]; omega
  · rw [canonical_length]; omega

/-- Settles O15: the answer of DECODE goes out, and a well-formed response passes DECODE's tests. -/
theorem respDisplayCompletes : Obligations.RespDisplayCompletes := by
  refine fun raw s => ⟨rfl, fun hwf => ?_⟩
  obtain ⟨hlen, hmark⟩ := wellFormed_respDisplay_iff.mp hwf
  exact decodeResponse_of_mark hlen.ge hmark s.cfg

end Sys2Proof.Machine
end

section
/-!
SUPPORT. Proofs of the statements of spec/30_encoding.md, the driver: the grant of the display query, and that only command
frames are written.
-/

namespace Sys2Proof.Machine

variable {s t : State}

/-! ## The display query -/

/-- The grant on a configured link outside POWERON: the lock set, the operands stored, the frame built (R124). -/
theorem grantExchange_of_configured (hp : s.seq.isPower = false) (hc : s.configured = true) (owner : Caller) (c : Byte)
    (n : Nat) : grantExchange owner c n s =
      .next { s with linkBusy := true, cmdReg := c, nReg := n, rxPresent := false, txbuf := (s.buildFrame c).txbuf,
                     seq := .xOpen, xOwner := owner, xOk := false } := by
  simp only [grantExchange, hp, hc, if_true, if_false, Bool.false_eq_true]
  rfl

/-- Settles O28: both rows request the same exchange, and the grant builds the frame. -/
theorem queryDisplayIsGranted : Obligations.QueryDisplayIsGranted := by
  refine ⟨fun s => rfl, fun s hb hp hc => ⟨(s.buildFrame cmdDisplay).txbuf, ?_, s.buildFrame_txBytes cmdDisplay,
    fun a ha => s.buildFrame_read_other cmdDisplay ha⟩⟩
  exact (requestExchange_of_free (n := respSize) (by decide) hb .host cmdDisplay).trans
    (grantExchange_of_configured hp hc .host cmdDisplay respSize)

/-! ## What is written to the link -/

/-- An event that writes nothing else than a command frame keeps what went out so. -/
theorem State.SendsFrames.emit (h : s.SendsFrames) {e : Event}
    (he : ∀ bytes answer, e = .link (.write bytes answer) → ∃ c, bytes = frameBytes c) : (s.emit e).SendsFrames := by
  intro bytes answer hmem
  rw [State.emit, linkTrace_append, List.mem_append] at hmem
  rcases hmem with hmem | hmem
  · exact h bytes answer hmem
  · cases e with
    | link call => exact he bytes answer (by simp_all)
    | sleep ms a => simp at hmem
    | report kind info => simp at hmem
    | push v => simp at hmem
    | result r => simp at hmem

theorem State.SendsFrames.deliver (h : s.SendsFrames) (owner : Caller) (r : Option Bytes) :
    (s.deliver owner r).SendsFrames := by
  cases owner with
  | host => exact h.emit nofun
  | poll => exact h

theorem State.SendsFrames.setLines (h : s.SendsFrames) (l : Bool × Bool) : (s.setLines l).SendsFrames :=
  State.SendsFrames.emit (by exact h) nofun

theorem State.SendsFrames.parse (h : s.SendsFrames) (str : Str) : (s.parse str).SendsFrames := by
  rcases s.parse_cases str with ⟨-, ht⟩ | ⟨info, -, ht⟩ | ⟨v, -, ht⟩ <;> rw [ht]
  · exact h
  · exact h.emit nofun
  · exact h

theorem State.SendsFrames.commitPoll (h : s.SendsFrames) (r : Option Bytes) : (s.commitPoll r).SendsFrames := by
  by_cases hc : canonOf s.cfg r = s.lastDecoded
  · rw [State.commitPoll_same hc]
    exact State.SendsFrames.emit (by exact h) nofun
  · rw [State.commitPoll_changed hc]
    have hparsed : (State.parse { s with lastDecoded := canonOf s.cfg r } (canonOf s.cfg r)).SendsFrames :=
      State.SendsFrames.parse (by exact h) _
    have hpublished : (s.publish (canonOf s.cfg r)).SendsFrames := hparsed.emit nofun
    exact State.SendsFrames.emit (by exact hpublished) nofun

/-! ### The instructions -/

theorem grantExchange_sendsFrames {owner : Caller} {c : Byte} {n : Nat} (h : s.SendsFrames)
    (ht : grantExchange owner c n s = .next t) : t.SendsFrames := by
  obtain ⟨-, ⟨-, rfl⟩ | ⟨-, rfl⟩⟩ := grantExchange_next ht
  · exact h
  · exact State.SendsFrames.deliver (by exact h) owner none

theorem requestExchange_sendsFrames {owner : Caller} {c : Byte} {n : Nat} (h : s.SendsFrames)
    (ht : requestExchange owner c n s = .next t) : t.SendsFrames := by
  obtain ⟨-, ⟨-, rfl⟩ | ⟨-, hgrant⟩⟩ := requestExchange_next ht
  · exact h
  · exact grantExchange_sendsFrames h hgrant

theorem grantWaiter_sendsFrames {w : Waiter} (h : s.SendsFrames) (ht : grantWaiter w s = .next t) : t.SendsFrames := by
  cases w with
  | exchange owner c n => exact grantExchange_sendsFrames h ht
  | frame c => cases ht; exact h

theorem execCmdframe_sendsFrames {c : Byte} (h : s.SendsFrames) (ht : execCmdframe c s = .next t) : t.SendsFrames := by
  unfold execCmdframe at ht
  split at ht <;> cases ht <;> exact h

theorem setupFails_sendsFrames (h : s.SendsFrames) (info : ReportInfo) : (setupFails info s).SendsFrames := by
  have hreport : (({ s with configured := false } : State).report .configurationError info).SendsFrames :=
    State.SendsFrames.emit (by exact h) nofun
  exact hreport.emit nofun

theorem execSetup_sendsFrames {pid : Option Str} (h : s.SendsFrames) (ht : execSetup pid s = .next t) : t.SendsFrames := by
  obtain ⟨-, ⟨-, rfl⟩ | ⟨port, -, rfl⟩⟩ := execSetup_next ht
  · exact setupFails_sendsFrames (by exact h) _
  · have hcall (b : Bool) : (({ s with portId := some port } : State).afterConfigure.linkCall
        (.configure port linkConfig b)).SendsFrames :=
      State.SendsFrames.emit (by exact h) nofun
    rcases setupPort_cases port { s with portId := some port } with ht | ht <;> rw [ht]
    · exact State.SendsFrames.emit (by exact (hcall true).setLines idleLines) nofun
    · exact setupFails_sendsFrames (hcall false) _

/-- No instruction writes to the link by itself: only the write phase of an exchange does (R127). -/
theorem exec_sendsFrames {i : Instr} (h : s.SendsFrames) (ht : exec i s = .next t) : t.SendsFrames := by
  have hresult (r : Result) : (s.emit (.result r)).SendsFrames := h.emit nofun
  cases i with
  | cmdframe c => exact execCmdframe_sendsFrames h ht
  | queryDisplay => exact requestExchange_sendsFrames (c := cmdDisplay) (n := respSize) h ht
  | exchange c n => exact requestExchange_sendsFrames h ht
  | poll => exact requestExchange_sendsFrames (by exact h) (execPoll_next ht).2
  | setup pid => exact execSetup_sendsFrames h ht
  | poweron =>
    obtain ⟨-, -, rfl⟩ := execPoweron_next ht
    exact h
  | parse str => cases ht; exact (h.parse str).emit nofun
  | respDisplay raw => cases ht; exact hresult _
  | getsnapshot => cases ht; exact hresult _
  | decode raw => cases ht; exact hresult _
  | cmap b => cases ht; exact hresult _

/-! ### The phases -/

theorem phaseOpen_sendsFrames (h : s.SendsFrames) (ht : phaseOpen s = .next t) : t.SendsFrames := by
  have hcall (b : Bool) : (s.afterOpen.linkCall (.openPort b)).SendsFrames := State.SendsFrames.emit (by exact h) nofun
  rcases phaseOpen_next ht with ⟨-, rfl⟩ | ⟨-, rfl⟩
  · exact hcall true
  · exact State.SendsFrames.deliver (by exact hcall false) _ _

/-- The write phase sends the frame, which stands unchanged since the grant (R29, R127). -/
theorem phaseWrite_sendsFrames (h : s.SendsFrames) {c : Byte} (hframe : s.txBytes = frameBytes c)
    (ht : phaseWrite s = .next t) : t.SendsFrames := by
  have hcall (a : WriteAnswer) : (s.afterWrite.linkCall (.write s.txBytes a)).SendsFrames :=
    State.SendsFrames.emit (by exact h) fun bytes answer he => ⟨c, by cases he; exact hframe⟩
  rcases phaseWrite_next ht with ⟨-, rfl⟩ | ⟨-, rfl⟩
  · exact hcall .accepted
  · exact hcall s.writeAnswer

theorem phaseRead_sendsFrames (h : s.SendsFrames) (ht : phaseRead s = .next t) : t.SendsFrames := by
  have hafter : (s.afterRead s.nReg).SendsFrames := by
    unfold State.afterRead
    split <;> exact h
  have hcall (a : Option Bytes) : ((s.afterRead s.nReg).linkCall (.readExact s.nReg tReadMs a)).SendsFrames :=
    hafter.emit nofun
  rcases phaseRead_next ht with ⟨-, rfl⟩ | ⟨bytes, -, -, -, rfl⟩
  · exact hcall none
  · exact hcall (some bytes)

theorem phaseClose_sendsFrames (h : s.SendsFrames) (ht : phaseClose s = .next t) : t.SendsFrames := by
  have hcall : (s.linkCall .closePort).SendsFrames := h.emit nofun
  obtain ⟨r, ⟨-, -, rfl⟩ | ⟨-, -, rfl⟩⟩ := phaseClose_next ht <;> exact State.SendsFrames.deliver (by exact hcall) _ _

theorem abortPoweron_sendsFrames (h : s.SendsFrames) : (abortPoweron s).SendsFrames := by
  have hreport : (s.report .interrupted (.powerOnAborted (s.pwrRep + 1))).afterRestoreDraw.SendsFrames :=
    h.emit (e := .report .interrupted (.powerOnAborted (s.pwrRep + 1))) nofun
  unfold abortPoweron
  split
  · exact State.SendsFrames.emit (by exact hreport.setLines idleLines) nofun
  · exact State.SendsFrames.emit (by exact hreport) nofun

theorem phaseHold_sendsFrames (h : s.SendsFrames) (ht : phaseHold s = .next t) : t.SendsFrames := by
  have hslept (a : SleepAnswer) : (s.afterSleep.emit (.sleep tHoldMs a)).SendsFrames :=
    State.SendsFrames.emit (by exact h) nofun
  rcases phaseHold_next ht with ⟨-, rfl⟩ | ⟨-, rfl⟩
  · exact hslept .elapsed
  · exact abortPoweron_sendsFrames (hslept .interrupted)

theorem phaseRestore_sendsFrames (h : s.SendsFrames) (ht : phaseRestore s = .next t) : t.SendsFrames := by
  rcases phaseRestore_next ht with ⟨-, rfl⟩ | ⟨-, rfl⟩
  · exact h.setLines idleLines
  · exact State.SendsFrames.emit (by exact h.setLines idleLines) nofun

theorem phaseStep_sendsFrames (hinv : s.Inv) (h : s.SendsFrames) (ht : phaseStep s = .next t) : t.SendsFrames := by
  unfold phaseStep at ht
  split at ht
  · cases ht; exact h
  · exact phaseOpen_sendsFrames h ht
  · rename_i hq
    exact phaseWrite_sendsFrames h (hinv.frameStands (.inr hq)) ht
  · exact phaseRead_sendsFrames h ht
  · exact phaseClose_sendsFrames h ht
  · cases ht; exact h.setLines activeLines
  · exact phaseHold_sendsFrames h ht
  · exact phaseRestore_sendsFrames h ht

theorem runMove_sendsFrames {m : Move} (hinv : s.Inv) (h : s.SendsFrames) (ht : runMove m s = .next t) :
    t.SendsFrames := by
  cases m with
  | phase => exact phaseStep_sendsFrames hinv h ht
  | commit r => cases ht; exact h.commitPoll r
  | grant k =>
    cases hw : s.held[k]? with
    | none =>
      simp only [runMove, hw] at ht
      cases ht
      exact h
    | some w =>
      rw [runMove_grant hw] at ht
      exact grantWaiter_sendsFrames (by exact h) ht

/-- Settles O53: of all a step can do only the write phase writes, and by the invariant it finds the frame in TX. -/
theorem onlyCommandFramesAreWritten : Obligations.OnlyCommandFramesAreWritten := by
  intro s t hinv h ht
  rcases step_next ht with ⟨r, i, -, -, hexec⟩ | ⟨bytes, -, rfl⟩ | ⟨-, -, rfl⟩ | ⟨-, m, u, -, hu, hrun⟩
  · exact exec_sendsFrames (by exact h) hexec
  · exact State.SendsFrames.emit (by exact h) nofun
  · exact h
  · rcases hu with rfl | rfl
    · exact runMove_sendsFrames hinv.popPort (by exact h) hrun
    · exact runMove_sendsFrames (hinv.popPort.drawn _) (by exact h) hrun

end Sys2Proof.Machine
end

section
/-!
SUPPORT. Proofs of the statements of spec/40_protocol_driver.md: what SETUP, a grant and each phase do once the answer they meet
is known, and from these the whole EXCHANGE and the whole POWERON.
-/

namespace Sys2Proof.Machine

variable {s t : State}

/-! ## SETUP -/

theorem State.setupBlocked_iff : s.setupBlocked = true ↔ s.linkBusy = true ∨ s.pollBusy = true ∨ s.seq ≠ .idle := by
  simp [State.setupBlocked, Phase.isIdle_eq_false, or_assoc]

theorem setupFails_eq (info : ReportInfo) (s : State) :
    setupFails info s = { s with
      configured := false, out := s.out ++ [.report .configurationError info, .result .setupFailure] } := by
  simp [setupFails, State.emit]

theorem setupPort_of_accepted (ha : s.configureAnswer = true) (port : Str) :
    setupPort port s = { s with
      configured := true, dtr := true, rts := false,
      env := { s.env with configures := s.env.configures.tail }, draws := s.draws + 1,
      out := s.out ++ [.link (.configure port linkConfig true), .link (.setControlLines true false), .result .setupOk] } := by
  simp [setupPort, ha, State.setLines, idleLines, State.afterConfigure, State.drawn, State.emit]

theorem setupPort_of_rejected (ha : s.configureAnswer = false) (port : Str) :
    setupPort port s = { s with
      configured := false, env := { s.env with configures := s.env.configures.tail }, draws := s.draws + 1,
      out := s.out ++ [.link (.configure port linkConfig false), .report .configurationError .linkRejected,
                       .result .setupFailure] } := by
  simp [setupPort, ha, setupFails_eq, State.afterConfigure, State.drawn, State.emit]

/-- Settles O25: the guard is the three busy conditions, and past it the two answers of `LinkConfigure` decide. -/
theorem setupOutcomes : Obligations.SetupOutcomes := by
  refine ⟨fun _ => rfl, fun s pid hbusy => if_pos (State.setupBlocked_iff.mpr hbusy), fun s hb hp hq => ?_⟩
  have hfree : ¬ s.setupBlocked = true := by simp [State.setupBlocked_iff, hb, hp, hq]
  refine ⟨(if_neg hfree).trans (congrArg _ (setupFails_eq _ _)), fun port => (if_neg hfree).trans (congrArg _ ?_)⟩
  cases ha : s.configureAnswer
  · exact setupPort_of_rejected (s := { s with portId := some port }) ha port
  · exact setupPort_of_accepted (s := { s with portId := some port }) ha port

/-! ## CMDFRAME -/

/-- Settles O26: with the lock free the frame is built at once, and the build writes the addresses 0 to 5 only. -/
theorem cmdframeBuildsFrame : Obligations.CmdframeBuildsFrame := by
  intro c s hb
  have hframe : (s.buildFrame c).txBytes = frameBytes c := s.buildFrame_txBytes c
  simp only [State.txBytes, Memory.readBlock, frameBytes, cmdLen, List.range_succ, List.range_zero, List.nil_append,
    List.cons_append, List.map_cons, List.map_nil, Nat.zero_add, List.cons.injEq, and_true] at hframe
  obtain ⟨h0, h1, h2, h3, h4, h5⟩ := hframe
  exact ⟨_, execCmdframe_of_free hb c, h0, h1, h2, h3, h4, h5, fun a ha => s.buildFrame_read_other c ha⟩

/-! ## The grant of EXCHANGE -/

/-- Before a successful SETUP a granted EXCHANGE ends at once with `none` (R125). -/
theorem grantExchange_of_unconfigured (hp : s.seq.isPower = false) (hc : s.configured = false) (owner : Caller) (c : Byte)
    (n : Nat) : grantExchange owner c n s =
      .next (State.deliver { s with linkBusy := false, cmdReg := c, nReg := n, rxPresent := false,
                                    txbuf := (s.buildFrame c).txbuf } owner none) := by
  simp only [grantExchange, hp, hc, if_false, Bool.false_eq_true]
  rfl

/-- Outside POWERON, with the lock free, EXCHANGE on a configured link starts its exchange (R124). -/
theorem execExchange_of_configured {n : Nat} (hn : n ≤ rxCap) (hb : s.linkBusy = false) (hp : s.seq.isPower = false)
    (hc : s.configured = true) (c : Byte) : execExchange c n s =
      .next { s with linkBusy := true, cmdReg := c, nReg := n, rxPresent := false, txbuf := (s.buildFrame c).txbuf,
                     seq := .xOpen, xOwner := .host, xOk := false } :=
  (requestExchange_of_free hn hb .host c).trans (grantExchange_of_configured hp hc .host c n)

/-- Settles O27: an EXCHANGE at a free lock is granted, and the grant builds the frame. -/
theorem exchangeIsGranted : Obligations.ExchangeIsGranted := fun c _ s hn hb hp hc =>
  ⟨_, execExchange_of_configured hn hb hp hc c, s.buildFrame_txBytes c, fun _ ha => s.buildFrame_read_other c ha⟩

/-- Settles O29: the grant on an unconfigured link builds the frame too, and returns `none` to the host caller. -/
theorem exchangeUnconfiguredReturnsNone : Obligations.ExchangeUnconfiguredReturnsNone := fun c n s hn hb hp hc =>
  ⟨(s.buildFrame c).txbuf, (requestExchange_of_free hn hb .host c).trans (grantExchange_of_unconfigured hp hc .host c n),
    s.buildFrame_txBytes c, fun _ ha => s.buildFrame_read_other c ha⟩

/-! ## The phases of EXCHANGE -/

theorem phaseStep_xOpen_true (hq : s.seq = .xOpen) (ha : s.openAnswer = true) :
    phaseStep s = .next { s with
      portOpen := true, seq := .xWrite, env := { s.env with opens := s.env.opens.tail }, draws := s.draws + 1,
      out := s.out ++ [.link (.openPort true)] } := by
  simp only [phaseStep, hq, phaseOpen, ha, if_true]
  rfl

/-- A failed open releases the lock and returns `none`, with no close (R126). -/
theorem phaseStep_xOpen_false (hq : s.seq = .xOpen) (ha : s.openAnswer = false) :
    phaseStep s = .next (State.deliver { s with
      seq := .idle, linkBusy := false, env := { s.env with opens := s.env.opens.tail }, draws := s.draws + 1,
      out := s.out ++ [.link (.openPort false)] } s.xOwner none) := by
  simp only [phaseStep, hq, phaseOpen, ha, if_false, Bool.false_eq_true]
  rfl

/-- Settles O32: a case for each answer, and of the failed open one for each owner. -/
theorem openPhase : Obligations.OpenPhase := by
  refine fun s hq => ⟨phaseStep_xOpen_true hq, fun ha ho => ?host, fun ha ho => ?poll⟩
  case host => simp [phaseStep_xOpen_false hq ha, ho, State.emit]
  case poll => simp [phaseStep_xOpen_false hq ha, ho]

theorem phaseStep_xWrite_accepted (hq : s.seq = .xWrite) (ha : s.writeAnswer = .accepted) :
    phaseStep s = .next { s with
      seq := .xRead, env := { s.env with writes := s.env.writes.tail }, draws := s.draws + 1,
      out := s.out ++ [.link (.write s.txBytes .accepted)] } := by
  simp only [phaseStep, hq, phaseWrite, ha]
  rfl

/-- A write that fails either way skips the read (R127). -/
theorem phaseStep_xWrite_failed (hq : s.seq = .xWrite) (ha : s.writeAnswer ≠ .accepted) :
    phaseStep s = .next { s with
      seq := .xClose, xOk := false, env := { s.env with writes := s.env.writes.tail }, draws := s.draws + 1,
      out := s.out ++ [.link (.write s.txBytes s.writeAnswer)] } := by
  simp only [phaseStep, hq, phaseWrite]
  cases h : s.writeAnswer
  · exact absurd h ha
  · rfl
  · rfl

/-- Settles O33: what is written is `State.txBytes`, the six bytes of TX in order. -/
theorem writePhase : Obligations.WritePhase := fun s hq =>
  ⟨s.txBytes, rfl, phaseStep_xWrite_accepted hq, phaseStep_xWrite_failed hq⟩

/-- Only an answer that is drawn can be err: for no bytes the answer is the empty sequence (R128). -/
theorem State.afterRead_of_err {n : Nat} (ha : s.readAnswer n = none) :
    s.afterRead n = s.drawn { s.env with reads := s.env.reads.tail } := by
  have hn : n ≠ 0 := by
    rintro rfl
    simp [State.readAnswer] at ha
  simp [State.afterRead, hn]

theorem phaseStep_xRead_err (hq : s.seq = .xRead) (ha : s.readAnswer s.nReg = none) :
    phaseStep s = .next { s with
      seq := .xClose, xOk := false, env := { s.env with reads := s.env.reads.tail }, draws := s.draws + 1,
      out := s.out ++ [.link (.readExact s.nReg 100 none)] } := by
  simp only [phaseStep, hq, phaseRead, ha, State.afterRead_of_err ha]
  rfl

/-- The bytes asked for are stored from address 0 on (R128). -/
theorem phaseStep_xRead_bytes {bytes : Bytes} (hq : s.seq = .xRead) (ha : s.readAnswer s.nReg = some bytes)
    (hlen : bytes.length = s.nReg) (hn : s.nReg ≤ rxCap) :
    phaseStep s = .next { s.afterRead s.nReg with
      rxbuf := s.rxbuf.writeBlock 0 bytes, rxLen := s.nReg, seq := .xClose, xOk := true,
      out := s.out ++ [.link (.readExact s.nReg 100 (some bytes))] } := by
  simp [phaseStep, hq, phaseRead, ha, hlen, Nat.not_lt.mpr hn, State.emit, tReadMs]

/-- A read from address 0 on gives the bytes written there. -/
theorem Memory.getElem?_eq_read_writeBlock (m : Memory) (bs : Bytes) {i : Nat} (h : i < bs.length) :
    bs[i]? = some ((m.writeBlock 0 bs).read i) := by
  have hread := m.read_writeBlock_inside (base := 0) h
  rw [Nat.zero_add] at hread
  rw [hread, List.getElem?_eq_getElem h]

/-- Settles O34: a case for each answer, and the write of a block to RX for the bytes. -/
theorem readPhase : Obligations.ReadPhase := by
  refine fun s hq hn => ⟨fun h0 => ⟨if_pos h0, if_pos h0⟩, phaseStep_xRead_err hq, fun bytes ha hlen =>
    ⟨_, phaseStep_xRead_bytes hq ha hlen hn, fun i hi => ?inside, fun a hge => ?outside⟩⟩
  case inside => exact s.rxbuf.getElem?_eq_read_writeBlock bytes (hlen ▸ hi)
  case outside => exact s.rxbuf.read_writeBlock_outside (.inr (by omega))

/-- What the close phase returns: nothing after a failure, else the response in RX (R129). -/
def State.closeResult (s : State) : Option Bytes := if s.xOk then some (s.rxbuf.readBlock 0 s.rxLen) else none

theorem State.closeResult_of_failed (hok : s.xOk = false) : s.closeResult = none := by simp [State.closeResult, hok]

theorem State.closeResult_of_ok (hok : s.xOk = true) : s.closeResult = some (s.rxbuf.readBlock 0 s.rxLen) := if_pos hok

/-- The close phase makes one close and releases the lock, and the response is present if the exchange did not fail (R129). -/
theorem phaseStep_xClose (hq : s.seq = .xClose) (hlen : s.rxLen ≤ rxCap) :
    phaseStep s = .next (State.deliver { s with
      portOpen := false, seq := .idle, linkBusy := false, rxPresent := s.rxPresent || s.xOk,
      out := s.out ++ [.link .closePort] } s.xOwner s.closeResult) := by
  cases hok : s.xOk
  · simp [phaseStep, hq, phaseClose, hok, s.closeResult_of_failed hok, State.emit]
  · simp [phaseStep, hq, phaseClose, hok, s.closeResult_of_ok hok, Nat.not_lt.mpr hlen, State.rxValue, State.emit]

/-- Settles O35: one close and one release in both cases, then a case for each owner. -/
theorem closePhase : Obligations.ClosePhase := by
  refine fun s hq hlen => ⟨s.closeResult, s.closeResult_of_failed, fun hok => ?bytes, fun ho => ?host, fun ho => ?poll⟩
  case bytes => simp [s.closeResult_of_ok hok, Memory.readBlock]
  case host => simp [phaseStep_xClose hq hlen, ho, State.emit]
  case poll => simp [phaseStep_xClose hq hlen, ho]

/-! ## The phases of POWERON -/

theorem execPoweron_of_idle (hc : s.configured = true) (hb : s.linkBusy = false) (hq : s.seq = .idle) :
    execPoweron s = .next { s with pwrRep := 0, seq := .pActive } := by
  simp [execPoweron, State.poweronBlocked, Phase.isIdle, hc, hb, hq]

/-- Settles O37: neither guard of POWERON stands in the way. -/
theorem poweronStarts : Obligations.PoweronStarts := fun _ => execPoweron_of_idle

theorem phaseStep_pActive (hq : s.seq = .pActive) :
    phaseStep s = .next { s with
      dtr := false, rts := true, seq := .pHold, out := s.out ++ [.link (.setControlLines false true)] } := by
  simp only [phaseStep, hq]
  rfl

theorem phaseStep_pHold_elapsed (hq : s.seq = .pHold) (ha : s.sleepAnswer = .elapsed) :
    phaseStep s = .next { s with
      seq := .pRestore, env := { s.env with sleeps := s.env.sleeps.tail }, draws := s.draws + 1,
      out := s.out ++ [.sleep 1000 .elapsed] } := by
  simp only [phaseStep, hq, phaseHold, ha]
  rfl

/-- A repetition before the third is counted and the next begins (R134). -/
theorem phaseStep_pRestore_more (hq : s.seq = .pRestore) (h : s.pwrRep < 2) :
    phaseStep s = .next { s with
      dtr := true, rts := false, pwrRep := s.pwrRep + 1, seq := .pActive,
      out := s.out ++ [.link (.setControlLines true false)] } := by
  have hlt : s.pwrRep + 1 < pwrReps := Nat.succ_lt_succ h
  simp only [phaseStep, hq, phaseRestore, hlt, if_true]
  rfl

/-- The third repetition is counted and the operation is done (R134). -/
theorem phaseStep_pRestore_last (hq : s.seq = .pRestore) (h : 2 ≤ s.pwrRep) :
    phaseStep s = .next { s with
      dtr := true, rts := false, pwrRep := s.pwrRep + 1, seq := .idle,
      out := s.out ++ [.link (.setControlLines true false), .result .poweronDone] } := by
  have hge : ¬ s.pwrRep + 1 < pwrReps := Nat.not_lt.mpr (Nat.succ_le_succ h)
  simp [phaseStep, hq, phaseRestore, hge, State.setLines, idleLines, State.emit]

/-- Settles O38: the phases one by one, the restore by whether the repetition it counts is the last. -/
theorem poweronPhases : Obligations.PoweronPhases :=
  ⟨fun _ => phaseStep_pActive, fun _ => phaseStep_pHold_elapsed, fun _ => phaseStep_pRestore_more,
    fun _ => phaseStep_pRestore_last⟩

theorem phaseStep_pHold_interrupted (hq : s.seq = .pHold) (ha : s.sleepAnswer = .interrupted) :
    phaseStep s = .next (abortPoweron { s with
      env := { s.env with sleeps := s.env.sleeps.tail }, draws := s.draws + 1,
      out := s.out ++ [.sleep 1000 .interrupted] }) := by
  simp [phaseStep, hq, phaseHold, ha, State.afterSleep, State.drawn, State.emit, tHoldMs]

/-- An interruption with the draw true drives the lines idle before the result (R135). -/
theorem abortPoweron_of_restore (hd : s.restoreDraw = true) :
    abortPoweron s = { s with
      dtr := true, rts := false, seq := .idle, env := { s.env with restores := s.env.restores.tail }, draws := s.draws + 1,
      out := s.out ++ [.report .interrupted (.powerOnAborted (s.pwrRep + 1)), .link (.setControlLines true false),
                       .result .poweronInterrupted] } := by
  simp [abortPoweron, hd, State.setLines, idleLines, State.afterRestoreDraw, State.drawn, State.emit]

/-- An interruption with the draw false leaves the lines as they are (R135). -/
theorem abortPoweron_of_keep (hd : s.restoreDraw = false) :
    abortPoweron s = { s with
      seq := .idle, env := { s.env with restores := s.env.restores.tail }, draws := s.draws + 1,
      out := s.out ++ [.report .interrupted (.powerOnAborted (s.pwrRep + 1)), .result .poweronInterrupted] } := by
  simp [abortPoweron, hd, State.afterRestoreDraw, State.drawn, State.emit]

/-- Settles O39: the draw is the one taken after the sleep's answer, and decides between the two endings. -/
theorem interruptedHold : Obligations.InterruptedHold := by
  intro s hq ha
  rw [phaseStep_pHold_interrupted hq ha]
  refine ⟨s.env.restores.headD (Config.restoreOnInterrupt (s.draws + 1)), _, rfl, fun x hx => ?scripted,
    fun hd => ?restored, fun hd => ?kept⟩
  case scripted => rw [List.headD_eq_head?_getD, hx, Option.getD_some]
  case restored =>
    rw [abortPoweron_of_restore]
    · simp
    · exact hd
  case kept =>
    rw [abortPoweron_of_keep]
    · simp
    · exact hd

/-! ## Runs of phases -/

/-- With nothing to be presented and no caller held, a step outside `IDLE` is the phase of the sequencer (R36). -/
theorem step_of_phase (hin : s.hostIn = []) (hh : s.held = []) (hq : s.seq ≠ .idle) : step s = phaseStep s := by
  have hp : s.presented = none := presented_eq_none (.inl (by simp [hin]))
  have hpop : s.popPort = s := by rw [State.popPort, hin, List.tail_nil, ← hin]
  rw [step_of_single hp (moves_of_phase hq hh), hpop]
  rfl

/-- The first step of a run is the phase the sequencer is in. -/
theorem core_run_phase {k : Nat} {o : Host.Outcome State Fault Refusal} (hin : s.hostIn = []) (hh : s.held = [])
    (hq : s.seq ≠ .idle) (hs : phaseStep s = .next t) (hrun : Sys2Proof.core.run k t = o) :
    Sys2Proof.core.run (k + 1) s = o :=
  (core_run_next ((step_of_phase hin hh hq).trans hs) k).trans hrun

/-- Where a write answer is scripted, the next one is the first of the script, whatever has been drawn before. -/
theorem State.head?_writes_of_writeAnswer {a : WriteAnswer} (hne : s.env.writes ≠ []) (ha : s.writeAnswer = a) :
    s.env.writes.head? = some a := by
  rw [← ha, State.writeAnswer, List.head?_eq_some_head hne, List.headD_eq_head?_getD, List.head?_eq_some_head hne,
    Option.getD_some]

theorem State.writeAnswer_of_head? {a : WriteAnswer} (h : s.env.writes.head? = some a) : s.writeAnswer = a := by
  rw [State.writeAnswer, List.headD_eq_head?_getD, h, Option.getD_some]

theorem State.sleepAnswer_of_head? {a : SleepAnswer} (h : s.env.sleeps.head? = some a) : s.sleepAnswer = a := by
  rw [State.sleepAnswer, List.headD_eq_head?_getD, h, Option.getD_some]

/-- For no bytes the answer is not the scripted one, but then the empty sequence is the only one of the size asked for. -/
theorem State.readAnswer_of_head? {bytes : Bytes} (h : s.env.reads.head? = some (some bytes)) :
    s.readAnswer bytes.length = some bytes := by
  cases bytes with
  | nil => rfl
  | cons b bs => simp [State.readAnswer, List.headD_eq_head?_getD, h]

/-- The open and the write of an exchange, each meeting no error (R126, R127). -/
theorem core_run_openAndWrite {k : Nat} (hin : s.hostIn = []) (hh : s.held = []) (hq : s.seq = .xOpen)
    (hopen : s.openAnswer = true) (hwrite : s.env.writes.head? = some .accepted) :
    Sys2Proof.core.run (k + 2) s = Sys2Proof.core.run k { s with
      portOpen := true, seq := .xRead,
      env := { s.env with opens := s.env.opens.tail, writes := s.env.writes.tail }, draws := s.draws + 2,
      out := s.out ++ [.link (.openPort true), .link (.write s.txBytes .accepted)] } := by
  refine core_run_phase hin hh (hq ▸ nofun) (phaseStep_xOpen_true hq hopen) ?_
  refine core_run_phase hin hh nofun (phaseStep_xWrite_accepted rfl (State.writeAnswer_of_head? hwrite)) ?_
  simp [State.txBytes]

/-- The read and the close of a host caller's exchange, the read meeting no error (R128, R129). -/
theorem core_run_readAndClose {bytes : Bytes} (hin : s.hostIn = []) (hh : s.held = []) (hq : s.seq = .xRead)
    (ho : s.xOwner = .host) (hlen : bytes.length = s.nReg) (hn : s.nReg ≤ rxCap)
    (hread : s.env.reads.head? = some (some bytes)) :
    Sys2Proof.core.run 2 s = .next { s.afterRead s.nReg with
      linkBusy := false, portOpen := false, rxbuf := s.rxbuf.writeBlock 0 bytes, rxLen := s.nReg, rxPresent := true,
      seq := .idle, xOk := true,
      out := s.out ++ [.link (.readExact s.nReg 100 (some bytes)), .link .closePort, .result (.exchange (some bytes))] } := by
  have hstored : (s.rxbuf.writeBlock 0 bytes).readBlock 0 s.nReg = bytes := hlen ▸ s.rxbuf.readBlock_writeBlock 0 bytes
  refine core_run_phase hin hh (hq ▸ nofun)
    (phaseStep_xRead_bytes hq (hlen ▸ State.readAnswer_of_head? hread) hlen hn) ?_
  refine core_run_phase (by simp [hin]) (by simp [hh]) nofun (phaseStep_xClose rfl hn) ?_
  simp [core_run_zero, ho, State.closeResult, hstored, State.emit]

/-- Settles O36: the grant, the open and the write, the read and the close. -/
theorem exchangeRunsToItsResult : Obligations.ExchangeRunsToItsResult := by
  intro s c n bytes hn hlen hb hq hc hh _ hin hopen hwrite hopens hwrites hread
  have hp : s.presented = some (.hostop 1 { c := c, n := n }) := presented_eq_some (congrArg List.head? hin)
  have hstart := (step_of_some hp).trans
    (execExchange_of_configured (s := s.popPort) hn hb (by simp [hq, Phase.isPower]) hc c)
  have hpop : s.popPort.hostIn = [] := by simp [hin]
  refine ⟨_, Eq.trans (core_run_next hstart 4) <|
    Eq.trans (core_run_openAndWrite hpop hh rfl hopen (State.head?_writes_of_writeAnswer hwrites hwrite)) <|
    core_run_readAndClose hpop hh rfl rfl hlen hn hread, ?_⟩
  have hframe : (s.popPort.buildFrame c).txbuf.readBlock 0 cmdLen = [0x55, 0x55, 0x55, 0x01, c, c] :=
    s.popPort.buildFrame_txBytes c
  have hrx : ∀ i < n, bytes[i]? = some ((s.rxbuf.writeBlock 0 bytes).read i) := fun i hi =>
    s.rxbuf.getElem?_eq_read_writeBlock bytes (hlen ▸ hi)
  simpa [State.txBytes, hframe] using hrx

/-- The lines active and a hold that elapses (R132, R133). -/
theorem core_run_hold {k : Nat} (hin : s.hostIn = []) (hh : s.held = []) (hq : s.seq = .pActive)
    (ha : s.env.sleeps.head? = some .elapsed) :
    Sys2Proof.core.run (k + 2) s = Sys2Proof.core.run k { s with
      dtr := false, rts := true, seq := .pRestore, env := { s.env with sleeps := s.env.sleeps.tail },
      draws := s.draws + 1, out := s.out ++ [.link (.setControlLines false true), .sleep 1000 .elapsed] } := by
  refine core_run_phase hin hh (hq ▸ nofun) (phaseStep_pActive hq) ?_
  refine core_run_phase hin hh nofun (phaseStep_pHold_elapsed rfl (State.sleepAnswer_of_head? ha)) ?_
  simp

/-- One repetition before the third (R131). -/
theorem core_run_repetition {k : Nat} (hin : s.hostIn = []) (hh : s.held = []) (hq : s.seq = .pActive) (hrep : s.pwrRep < 2)
    (ha : s.env.sleeps.head? = some .elapsed) :
    Sys2Proof.core.run (k + 3) s = Sys2Proof.core.run k { s with
      dtr := true, rts := false, pwrRep := s.pwrRep + 1, seq := .pActive,
      env := { s.env with sleeps := s.env.sleeps.tail }, draws := s.draws + 1,
      out := s.out ++ [.link (.setControlLines false true), .sleep 1000 .elapsed, .link (.setControlLines true false)] } := by
  refine (core_run_hold hin hh hq ha).trans ?_
  refine core_run_phase hin hh nofun (phaseStep_pRestore_more rfl hrep) ?_
  simp

/-- The third repetition, after which the operation is done (R134). -/
theorem core_run_lastRepetition (hin : s.hostIn = []) (hh : s.held = []) (hq : s.seq = .pActive) (hrep : 2 ≤ s.pwrRep)
    (ha : s.env.sleeps.head? = some .elapsed) :
    Sys2Proof.core.run 3 s = .next { s with
      dtr := true, rts := false, pwrRep := s.pwrRep + 1, seq := .idle,
      env := { s.env with sleeps := s.env.sleeps.tail }, draws := s.draws + 1,
      out := s.out ++ [.link (.setControlLines false true), .sleep 1000 .elapsed, .link (.setControlLines true false),
                       .result .poweronDone] } := by
  refine (core_run_hold hin hh hq ha).trans ?_
  refine core_run_phase hin hh nofun (phaseStep_pRestore_last rfl hrep) ?_
  simp [core_run_zero]

/-- Settles O40: the start, two repetitions after which another begins, and the third. -/
theorem poweronRunsThreeRepetitions : Obligations.PoweronRunsThreeRepetitions := by
  intro s hc hb hq hh _ hin hsleeps
  have hp : s.presented = some (.hostop 2 {}) := presented_eq_some (congrArg List.head? hin)
  have hstart := (step_of_some hp).trans (execPoweron_of_idle (s := s.popPort) hc hb hq)
  have hpop : s.popPort.hostIn = [] := by simp [hin]
  obtain ⟨rest, hrest⟩ : ∃ rest, s.env.sleeps = .elapsed :: .elapsed :: .elapsed :: rest :=
    ⟨s.env.sleeps.drop 3, by rw [← List.take_append_drop 3 s.env.sleeps, hsleeps]; simp⟩
  refine ⟨_, Eq.trans (core_run_next hstart 9) <|
    Eq.trans (core_run_repetition hpop hh rfl (by simp) (by simp [hrest])) <|
    Eq.trans (core_run_repetition hpop hh rfl (by simp) (by simp [hrest])) <|
    core_run_lastRepetition hpop hh rfl (by simp) (by simp [hrest]), ?_⟩
  simp

end Sys2Proof.Machine
end

section
/-!
SUPPORT. Proofs of the statements of spec/41_frame_decoder.md: the led segment, what each of DECODE's tests answers, and the
offsets its answer depends on.
-/

namespace Sys2Proof.Machine

/-! ## The led segment -/

/-- Character k of `bin8` renders bit 7 - k (R11, R154). -/
theorem bin8_getElem? (b : Byte) {k : Nat} (hk : k < 8) :
    (bin8 b)[k]? = some (if b.getLsbD (7 - k) then '1' else '0') := by
  have horder : ∀ j < 8, [7, 6, 5, 4, 3, 2, 1, 0][j]? = some (7 - j) := by decide
  rw [bin8, List.getElem?_map, horder k hk, Option.map_some]

/-- Settles O7: the led segment is `bin8` of the byte at offset 8, which puts bit 7 - k at place k. -/
theorem ledSegmentRendersBits : Obligations.LedSegmentRendersBits :=
  ⟨fun raw => ⟨ledSegment_length raw, fun _ hk => bin8_getElem? (byteAt raw ledOff) hk⟩, by decide⟩

/-! ## The tests -/

/-- A response too short for the marker is malformed, whatever it holds (R160, test 2). -/
theorem decodeResponse_of_short {raw : Bytes} (h : raw.length < 3) (p : Params) :
    decodeResponse p (some raw) = .err .malformed := if_pos h

/-- A response with another marker is a communication error, whatever its length (R160, test 3). -/
theorem decodeResponse_of_not_mark {raw : Bytes} (hlen : 3 ≤ raw.length) (hmark : raw.take 3 ≠ [0xAA, 0xAA, 0xAA])
    (p : Params) : decodeResponse p (some raw) = .err .communicationError := by
  have hbad : ¬ markOk raw = true := fun hok => hmark (markOk_iff.mp ⟨hlen, hok⟩)
  simp [decodeResponse, hbad, Nat.not_lt.mpr hlen]

/-- A marked response that is cut short is malformed (R160, test 4). -/
theorem decodeResponse_of_cut {raw : Bytes} (hmark : raw.take 3 = [0xAA, 0xAA, 0xAA]) (hcut : raw.length < 371)
    (p : Params) : decodeResponse p (some raw) = .err .malformed := by
  obtain ⟨hthree, hok⟩ := markOk_iff.mpr hmark
  simp [decodeResponse, hok, Nat.not_lt.mpr hthree, show raw.length < respSize from hcut]

/-- Settles O10: one answer for each outcome of the tests, and no two outcomes hold of one response. -/
theorem decodeTestsInOrder : Obligations.DecodeTestsInOrder := by
  rintro p (_ | raw)
  · simp [decodeResponse]
  by_cases hshort : raw.length < 3
  · simp [decodeResponse_of_short hshort, hshort, show ¬ 371 ≤ raw.length by omega]
  have hthree : 3 ≤ raw.length := Nat.not_lt.mp hshort
  by_cases hmark : raw.take 3 = [0xAA, 0xAA, 0xAA]
  · by_cases hcut : raw.length < 371
    · simp [decodeResponse_of_cut hmark hcut, hmark, hcut, Nat.not_le.mpr hcut]
    · simp [decodeResponse_of_mark (Nat.not_lt.mp hcut) hmark, hmark, hshort, hcut, Nat.not_lt.mp hcut, eq_comm]
  · simp_all [decodeResponse_of_not_mark hthree hmark]

/-! ## The offsets DECODE reads -/

/-- The canonical string reads the bytes at offsets 8 to 368 and no others (R94, R97). -/
theorem canonical_congr {raw raw' : Bytes} (h : ∀ i, 8 ≤ i → i ≤ 368 → byteAt raw i = byteAt raw' i) (p : Params) :
    canonical p raw = canonical p raw' := by
  have hled : ledSegment raw = ledSegment raw' := congrArg bin8 (h 8 (by omega) (by omega))
  have hrows : (List.range rows).map (rowText p raw) = (List.range rows).map (rowText p raw') := by
    refine List.map_congr_left fun r hr => List.flatMap_congr fun c hc => ?_
    simp only [List.mem_range, rows, cols] at hr hc
    rw [h] <;> simp only [glyphOffset, glyphOff, cols] <;> omega
  have hattrs : (List.range attrN).map (attrToken raw) = (List.range attrN).map (attrToken raw') := by
    refine List.map_congr_left fun c hc => congrArg dec ?_
    simp only [List.mem_range, attrN] at hc
    apply h <;> simp only [attrOffset, attrOff] <;> omega
  rw [canonical, canonical, canonFields, canonFields, hled, hrows, attrSegment, attrSegment, hattrs]

/-- Settles O11: the marker decides whether a response that is long enough decodes, and the canonical string reads the
offsets 8 to 368. -/
theorem decodeIgnoresOtherBytes : Obligations.DecodeIgnoresOtherBytes := by
  refine ⟨fun p r r' hlen hlen' hagree => ?_, fun p rest hrest =>
    ⟨_, decodeResponse_of_mark (by simp; omega) (by simp) p⟩⟩
  have hmark : r.take 3 = r'.take 3 := by
    refine List.ext_getElem? fun i => ?_
    by_cases hi : i < 3
    · rw [List.getElem?_take_of_lt hi, List.getElem?_take_of_lt hi, hagree i (.inl hi)]
    · simp [hi]
  have hbytes (i : Nat) (hlow : 8 ≤ i) (hhigh : i ≤ 368) : byteAt r i = byteAt r' i := by
    rw [byteAt, byteAt, List.getD_eq_getElem?_getD, List.getD_eq_getElem?_getD, hagree i (.inr ⟨hlow, hhigh⟩)]
  by_cases hok : r.take 3 = [0xAA, 0xAA, 0xAA]
  · rw [decodeResponse_of_mark hlen hok, decodeResponse_of_mark hlen' (hmark ▸ hok), canonical_congr hbytes]
  · rw [decodeResponse_of_not_mark (by omega) hok, decodeResponse_of_not_mark (by omega) (hmark ▸ hok)]

/-! ## DECODE as a host operation -/

/-- Settles O14: in every state the answer goes out, and nothing else changes. -/
theorem decodeCompletes : Obligations.DecodeCompletes := fun _ _ => rfl

end Sys2Proof.Machine
end

section
/-!
SUPPORT. Proofs of the statements of spec/42_character_map.md: what CMAP returns of a table, the default table entry by entry,
and that no step writes the table.
-/

namespace Sys2Proof.Machine

variable {s t : State}

/-! ## The lookup -/

/-- A byte with no entry gives one space (R183). -/
theorem glyph_of_lookup_none {p : Params} {b : Byte} (h : p.glyphs.lookup b = none) : p.glyph b = [' '] := by
  rw [Params.glyph, glyphOf, h]
  rfl

/-- A byte with an entry gives the entry (R180). -/
theorem glyph_of_lookup_some {p : Params} {b : Byte} {g : Str} (h : p.glyphs.lookup b = some g) :
    p.glyph b = g := by
  rw [Params.glyph, glyphOf, h, Option.getD_some]

/-- A bound on the entries bounds the default too, which has one character (R181, R183). -/
theorem glyph_length_le {p : Params} (h : ∀ e ∈ p.glyphs, e.2.length ≤ 2) (b : Byte) : (p.glyph b).length ≤ 2 := by
  cases hl : p.glyphs.lookup b with
  | none =>
    rw [glyph_of_lookup_none hl]
    decide
  | some g =>
    rw [glyph_of_lookup_some hl]
    obtain ⟨l, l', hsplit, -⟩ := List.lookup_eq_some_iff.mp hl
    exact h (b, g) (by simp [hsplit])

/-- Settles O16: the answer goes out and nothing else changes; its string is the entry, or the default where there is none. -/
theorem cmapCompletes : Obligations.CmapCompletes := by
  refine fun b s => ⟨rfl, rfl, glyph_of_lookup_none, fun _ => glyph_of_lookup_some, ?_⟩
  rintro ⟨hlen, hA, ha, h07, h3C, h5F, h5B, -, h5D, -, -⟩
  refine ⟨glyph_length_le hlen b, ?_, ?_, ?_, ?_, ?_⟩
  · rintro rfl; exact h5F
  · rintro (rfl | rfl)
    · exact h5B
    · exact h5D
  · rintro rfl; exact ha
  · rintro rfl; exact hA
  · rintro (rfl | rfl)
    · exact h07
    · exact h3C

/-! ## The default table -/

/-- In a table that lists no byte twice every entry is found. -/
theorem glyph_of_mem {p : Params} (hkeys : (p.glyphs.map Prod.fst).Nodup) {b : Byte} {g : Str}
    (h : (b, g) ∈ p.glyphs) : p.glyph b = g := by
  obtain ⟨l, l', hsplit⟩ := List.append_of_mem h
  refine glyph_of_lookup_some (List.lookup_eq_some_iff.mpr ⟨l, l', hsplit, fun e he => ?_⟩)
  have hne : e.1 ≠ b := by
    rw [hsplit, List.map_append, List.map_cons, List.nodup_append] at hkeys
    obtain ⟨-, -, hdisjoint⟩ := hkeys
    exact hdisjoint e.1 (List.mem_map_of_mem he) b List.mem_cons_self
  simpa using hne.symm

/-- The bytes `CMAP0` lists (R191). -/
def cmap0Keys : List Byte := [0x07] ++ ((List.range 64).map fun i => BitVec.ofNat 8 (0x20 + i)) ++ highKeys

theorem cmap0_keys (hi : Byte → Str) : (cmap0 hi).map Prod.fst = cmap0Keys := rfl

theorem cmap0Keys_nodup : cmap0Keys.Nodup := by decide

/-- Every byte listed is 0x07, one of the region 0x20 to 0x5F, or a high key (R190). -/
theorem of_mem_cmap0Keys {b : Byte} (h : b ∈ cmap0Keys) : b = 0x07 ∨ (0x20 ≤ b ∧ b ≤ 0x5F) ∨ b ∈ highKeys := by
  simp only [cmap0Keys, List.mem_append, List.mem_singleton, List.mem_map, List.mem_range] at h
  obtain (h07 | ⟨i, hi, rfl⟩) | hhigh := h
  · exact .inl h07
  · exact .inr (.inl (by constructor <;> bv_omega))
  · exact .inr (.inr hhigh)

theorem t0_glyph_of_mem {hi : Byte → Str} {b : Byte} {g : Str} (h : (b, g) ∈ cmap0 hi) (snap : Snapshot) :
    (Params.t0 hi snap).glyph b = g :=
  glyph_of_mem (p := Params.t0 hi snap) ((cmap0_keys hi).symm ▸ cmap0Keys_nodup) h

theorem t0_glyph_of_notMem {b : Byte} (h : b ∉ cmap0Keys) (hi : Byte → Str) (snap : Snapshot) :
    (Params.t0 hi snap).glyph b = [' '] := by
  refine glyph_of_lookup_none (List.lookup_eq_none_iff.mpr fun e he => ?_)
  have hkey : e.1 ∈ cmap0Keys := cmap0_keys hi ▸ List.mem_map_of_mem he
  have hne : b ≠ e.1 := fun hb => h (hb ▸ hkey)
  simpa using hne

/-- `CMAP0` keeps the fixed offset in the whole region: the listed bytes up to 0x5A, then 0x5C and 0x5E (R184). -/
theorem t0_cmapRegion (hi : Byte → Str) (snap : Snapshot) : (Params.t0 hi snap).CmapRegion := by
  intro b hlow hhigh h5B h5D h5F
  refine t0_glyph_of_mem ?_ snap
  by_cases hb : b < 0x5B
  · have hshift : (BitVec.ofNat 8 (0x20 + (b.toNat - 0x20)), [Char.ofNat (0x40 + (b.toNat - 0x20))]) ∈ cmap0 hi :=
      List.mem_append_left _ (List.mem_append_left _ (List.mem_append_right _
        (List.mem_map_of_mem (List.mem_range.mpr (by bv_omega)))))
    have hle : 0x20 ≤ b.toNat := by bv_omega
    rwa [show 0x40 + (b.toNat - 0x20) = b.toNat + 0x20 by omega, Nat.add_sub_cancel' hle, BitVec.ofNat_toNat,
      BitVec.setWidth_eq] at hshift
  · obtain rfl | rfl : b = 0x5C ∨ b = 0x5E := by bv_omega
    · simp [cmap0]
    · simp [cmap0]

/-- Settles O17: the region by its offset, the stated entries and the high keys where `CMAP0` lists them, and the default for
what it does not list. -/
theorem defaultTableEntries : Obligations.DefaultTableEntries := by
  refine fun hi snap b => ⟨t0_cmapRegion hi snap b, fun hb => ?high, fun hhigh h07 hout => ?other, ?_, ?_, ?_, ?_⟩
  case high => exact t0_glyph_of_mem (List.mem_append_right _ (List.mem_map_of_mem hb)) snap
  case other =>
    refine t0_glyph_of_notMem (fun hmem => ?_) hi snap
    obtain h | ⟨hlow, hup⟩ | h := of_mem_cmap0Keys hmem
    · exact h07 h
    · bv_omega
    · exact hhigh h
  all_goals
    rintro rfl
    exact t0_glyph_of_mem (by simp [cmap0]) snap

/-! ## The constants -/

theorem grantExchange_cfg {owner : Caller} {c : Byte} {n : Nat} (h : grantExchange owner c n s = .next t) :
    t.cfg = s.cfg := by
  obtain ⟨-, ⟨-, rfl⟩ | ⟨-, rfl⟩⟩ := grantExchange_next h
  · rfl
  · exact State.deliver_cfg ..

theorem requestExchange_cfg {owner : Caller} {c : Byte} {n : Nat} (h : requestExchange owner c n s = .next t) :
    t.cfg = s.cfg := by
  obtain ⟨-, ⟨-, rfl⟩ | ⟨-, hgrant⟩⟩ := requestExchange_next h
  · rfl
  · exact grantExchange_cfg hgrant

theorem grantWaiter_cfg {w : Waiter} (h : grantWaiter w s = .next t) : t.cfg = s.cfg := by
  cases w with
  | exchange owner c n => exact grantExchange_cfg h
  | frame c => cases h; rfl

theorem execCmdframe_cfg {c : Byte} (h : execCmdframe c s = .next t) : t.cfg = s.cfg := by
  unfold execCmdframe at h
  split at h <;> cases h <;> rfl

theorem execSetup_cfg {pid : Option Str} (h : execSetup pid s = .next t) : t.cfg = s.cfg := by
  obtain ⟨-, ⟨-, rfl⟩ | ⟨port, -, rfl⟩⟩ := execSetup_next h
  · rfl
  · rcases setupPort_cases port { s with portId := some port } with ht | ht <;> rw [ht] <;> rfl

theorem exec_cfg {i : Instr} (h : exec i s = .next t) : t.cfg = s.cfg := by
  cases i with
  | cmdframe c => exact execCmdframe_cfg h
  | queryDisplay => exact requestExchange_cfg (c := cmdDisplay) (n := respSize) h
  | exchange c n => exact requestExchange_cfg h
  | poll => exact (requestExchange_cfg (execPoll_next h).2).trans rfl
  | setup pid => exact execSetup_cfg h
  | poweron =>
    obtain ⟨-, -, rfl⟩ := execPoweron_next h
    rfl
  | parse str => cases h; exact State.parse_cfg s str
  | respDisplay raw => cases h; rfl
  | getsnapshot => cases h; rfl
  | decode raw => cases h; rfl
  | cmap b => cases h; rfl

theorem abortPoweron_cfg (s : State) : (abortPoweron s).cfg = s.cfg := by
  unfold abortPoweron
  split <;> rfl

theorem phaseStep_cfg (h : phaseStep s = .next t) : t.cfg = s.cfg := by
  unfold phaseStep at h
  split at h
  · cases h; rfl
  · rcases phaseOpen_next h with ⟨-, rfl⟩ | ⟨-, rfl⟩
    · rfl
    · exact State.deliver_cfg ..
  · rcases phaseWrite_next h with ⟨-, rfl⟩ | ⟨-, rfl⟩ <;> rfl
  · rcases phaseRead_next h with ⟨-, rfl⟩ | ⟨bytes, -, -, -, rfl⟩ <;> exact State.afterRead_cfg s s.nReg
  · obtain ⟨r, ⟨-, -, rfl⟩ | ⟨-, -, rfl⟩⟩ := phaseClose_next h <;> exact State.deliver_cfg ..
  · cases h; rfl
  · rcases phaseHold_next h with ⟨-, rfl⟩ | ⟨-, rfl⟩
    · rfl
    · exact abortPoweron_cfg _
  · rcases phaseRestore_next h with ⟨-, rfl⟩ | ⟨-, rfl⟩ <;> rfl

theorem runMove_cfg {m : Move} (h : runMove m s = .next t) : t.cfg = s.cfg := by
  cases m with
  | phase => exact phaseStep_cfg h
  | commit r => cases h; exact State.commitPoll_cfg s r
  | grant k =>
    cases hw : s.held[k]? with
    | none =>
      simp only [runMove, hw] at h
      cases h
      rfl
    | some w =>
      rw [runMove_grant hw] at h
      exact (grantWaiter_cfg h).trans rfl

/-- No step that goes on writes the constants (R8, R39, R192). -/
theorem step_cfg (h : step s = .next t) : t.cfg = s.cfg := by
  rcases step_next h with ⟨r, i, -, -, hexec⟩ | ⟨bytes, -, rfl⟩ | ⟨-, -, rfl⟩ | ⟨-, m, u, -, hu, hrun⟩
  · exact (exec_cfg hexec).trans s.popPort_cfg
  · rfl
  · rfl
  · rcases hu with rfl | rfl <;> exact (runMove_cfg hrun).trans rfl

/-- Settles O56: a step keeps the constants, and the glyphs are read from them. -/
theorem constantsAreNeverWritten : Obligations.ConstantsAreNeverWritten :=
  fun _ _ h => ⟨step_cfg h, fun b => congrArg (Params.glyph · b) (step_cfg h)⟩

end Sys2Proof.Machine
end

section
/-!
SUPPORT. Proofs of the statements of spec/43_display_state_machine.md, the push: that POLL's commit step pushes exactly when it
stores another `lastDecoded`, and that nothing else pushes or stores.
-/

namespace Sys2Proof.Machine

variable {s t : State}

/-! ## What pushes nothing -/

/-- What the rule of the push speaks of: `lastDecoded` and all that has been pushed (R205, R206). -/
def State.published (s : State) : Str × List Snapshot := (s.lastDecoded, pushes s.out)

theorem State.published_eq_iff : t.published = s.published ↔
    t.lastDecoded = s.lastDecoded ∧ pushes t.out = pushes s.out := Prod.mk_inj

/-- A delivery pushes nothing: it returns a result, or hands POLL its value. -/
@[simp] theorem State.pushes_deliver (s : State) (owner : Caller) (r : Option Bytes) :
    pushes (s.deliver owner r).out = pushes s.out := by
  cases owner <;> simp

/-- PARSE pushes nothing: it sends at most a report (R213). -/
@[simp] theorem State.pushes_parse (s : State) (str : Str) : pushes (s.parse str).out = pushes s.out := by
  rcases s.parse_out str with hout | ⟨info, hout⟩ <;> simp [hout]

/-- Nor does it make a Link call. -/
@[simp] theorem State.linkTrace_parse (s : State) (str : Str) : linkTrace (s.parse str).out = linkTrace s.out := by
  rcases s.parse_out str with hout | ⟨info, hout⟩ <;> simp [hout]

/-- Nor does it return by itself: its caller does. -/
@[simp] theorem State.results_parse (s : State) (str : Str) : results (s.parse str).out = results s.out := by
  rcases s.parse_out str with hout | ⟨info, hout⟩ <;> simp [hout]

theorem setupFails_published (info : ReportInfo) (s : State) : (setupFails info s).published = s.published := by
  simp [setupFails, State.published]

theorem abortPoweron_published (s : State) : (abortPoweron s).published = s.published := by
  unfold abortPoweron
  split <;> simp [State.published, State.afterRestoreDraw_eq_drawn]

theorem grantExchange_published {owner : Caller} {c : Byte} {n : Nat} (h : grantExchange owner c n s = .next t) :
    t.published = s.published := by
  obtain ⟨-, ⟨-, rfl⟩ | ⟨-, rfl⟩⟩ := grantExchange_next h
  · rfl
  · simp [State.published]

theorem requestExchange_published {owner : Caller} {c : Byte} {n : Nat} (h : requestExchange owner c n s = .next t) :
    t.published = s.published := by
  obtain ⟨-, ⟨-, rfl⟩ | ⟨-, hgrant⟩⟩ := requestExchange_next h
  · rfl
  · exact grantExchange_published hgrant

theorem grantWaiter_published {w : Waiter} (h : grantWaiter w s = .next t) : t.published = s.published := by
  cases w with
  | exchange owner c n => exact grantExchange_published h
  | frame c => cases h; rfl

theorem execCmdframe_published {c : Byte} (h : execCmdframe c s = .next t) : t.published = s.published := by
  unfold execCmdframe at h
  split at h <;> cases h <;> rfl

theorem execSetup_published {pid : Option Str} (h : execSetup pid s = .next t) : t.published = s.published := by
  obtain ⟨-, ⟨-, rfl⟩ | ⟨port, -, rfl⟩⟩ := execSetup_next h
  · exact setupFails_published ..
  · rcases setupPort_cases port { s with portId := some port } with ht | ht <;> rw [ht]
    · simp [State.published, State.afterConfigure_eq_drawn]
    · rw [setupFails_published]
      simp [State.published, State.afterConfigure_eq_drawn]

/-- No instruction stores or pushes: POLL does so only in its commit step (R205, R206). -/
theorem exec_published {i : Instr} (h : exec i s = .next t) : t.published = s.published := by
  have hresult (r : Result) : (s.emit (.result r)).published = s.published := by simp [State.published]
  cases i with
  | cmdframe c => exact execCmdframe_published h
  | queryDisplay => exact requestExchange_published (c := cmdDisplay) (n := respSize) h
  | exchange c n => exact requestExchange_published h
  | poll => exact (requestExchange_published (execPoll_next h).2).trans rfl
  | setup pid => exact execSetup_published h
  | poweron =>
    obtain ⟨-, -, rfl⟩ := execPoweron_next h
    rfl
  | parse str => cases h; simp [State.published]
  | respDisplay raw => cases h; exact hresult _
  | getsnapshot => cases h; exact hresult _
  | decode raw => cases h; exact hresult _
  | cmap b => cases h; exact hresult _

/-- No phase of the sequencer stores or pushes. -/
theorem phaseStep_published (h : phaseStep s = .next t) : t.published = s.published := by
  unfold phaseStep at h
  split at h
  · cases h; rfl
  · rcases phaseOpen_next h with ⟨-, rfl⟩ | ⟨-, rfl⟩ <;> simp [State.published, State.afterOpen_eq_drawn]
  · rcases phaseWrite_next h with ⟨-, rfl⟩ | ⟨-, rfl⟩ <;> simp [State.published, State.afterWrite_eq_drawn]
  · rcases phaseRead_next h with ⟨-, rfl⟩ | ⟨bytes, -, -, -, rfl⟩ <;> simp [State.published]
  · obtain ⟨r, ⟨-, -, rfl⟩ | ⟨-, -, rfl⟩⟩ := phaseClose_next h <;> simp [State.published]
  · cases h; simp [State.published]
  · rcases phaseHold_next h with ⟨-, rfl⟩ | ⟨-, rfl⟩
    · simp [State.published, State.afterSleep_eq_drawn]
    · rw [abortPoweron_published]
      simp [State.published, State.afterSleep_eq_drawn]
  · rcases phaseRestore_next h with ⟨-, rfl⟩ | ⟨-, rfl⟩ <;> simp [State.published]

/-! ## The commit step -/

/-- An unchanged canonical string is not pushed (R204). -/
theorem State.pushes_commitPoll_same {r : Option Bytes} (h : canonOf s.cfg r = s.lastDecoded) :
    pushes (s.commitPoll r).out = pushes s.out := by
  simp [State.commitPoll_same h]

/-- A changed one is pushed once, with the snapshot that its parse leaves (R205, R206). -/
theorem State.pushes_commitPoll_changed {r : Option Bytes} (h : canonOf s.cfg r ≠ s.lastDecoded) :
    pushes (s.commitPoll r).out = pushes s.out ++ [(s.commitPoll r).snapshot] := by
  simp [State.commitPoll_changed h, State.publish_out]

/-! ## The step -/

/-- What a step does to `lastDecoded` and to the push port: nothing, or it stores and pushes as the commit step does. -/
def State.PushesOnChange (s t : State) : Prop :=
  t.published = s.published ∨
    (t.lastDecoded ≠ s.lastDecoded ∧ pushes t.out = pushes s.out ++ [t.snapshot] ∧
      s.presented = none ∧ s.pollResult.isSome = true ∧ s.seq = .idle)

/-- Of the block's moves, taken with whatever the port and the answers to come have become, the commit step alone stores. -/
theorem runMove_pushesOnChange {m : Move} {hostIn : List (Option Request)} {env : Inputs} {draws : Nat}
    (hp : s.presented = none) (hm : m ∈ s.moves)
    (h : runMove m { s with hostIn := hostIn, env := env, draws := draws } = .next t) : s.PushesOnChange t := by
  rcases mem_moves hm with ⟨rfl, -⟩ | ⟨r, rfl, hr, hq⟩ | ⟨k, w, rfl, hw, -⟩
  · exact .inl ((phaseStep_published h).trans rfl)
  · cases h
    by_cases hc : canonOf s.cfg r = s.lastDecoded
    · exact .inl (State.published_eq_iff.mpr ⟨by rw [State.commitPoll_lastDecoded, hc],
        State.pushes_commitPoll_same (by exact hc)⟩)
    · exact .inr ⟨by rwa [State.commitPoll_lastDecoded], State.pushes_commitPoll_changed (by exact hc), hp,
        by simp [hr], Phase.isIdle_eq_true.mp hq⟩
  · rw [runMove_grant (by exact hw)] at h
    exact .inl ((grantWaiter_published h).trans rfl)

theorem step_pushesOnChange (h : step s = .next t) : s.PushesOnChange t := by
  rcases step_next h with ⟨r, i, -, -, hexec⟩ | ⟨bytes, -, rfl⟩ | ⟨-, -, rfl⟩ | ⟨hp, m, u, hm, hu, hrun⟩
  · exact .inl ((exec_published hexec).trans rfl)
  · exact .inl (by simp [State.published])
  · exact .inl rfl
  · rcases hu with rfl | rfl <;> exact runMove_pushesOnChange hp hm hrun

/-- Settles O57: of all a step can do only the commit step of POLL pushes, and it does so exactly when it stores. -/
theorem pushExactlyOnChange : Obligations.PushExactlyOnChange :=
  fun _ _ h => (step_pushesOnChange h).imp_left State.published_eq_iff.mp

end Sys2Proof.Machine
end

section
/-!
SUPPORT. Proofs of the statements of spec/43_display_state_machine.md, PARSE: what each of its checks answers, what it commits,
and that it undoes DECODE.
-/

namespace Sys2Proof.Machine

/-! ## What PARSE decides -/

theorem parseString_of_short {str : Str} (h : str.length ≤ 1) (p : Params) : parseString p str = .silent := if_pos h

theorem parseString_of_long {str : Str} (h : 2 ≤ str.length) (p : Params) :
    parseString p str = parseFields p.errToken (split str p.sep) := if_neg (by omega)

theorem parseFields_of_structure {e : Str} {f : List Str} (h : f.getD 0 [] = e ∨ f.length < 10) :
    parseFields e f = .warning .notDisplayString := if_pos h

theorem parseFields_of_short_led {e : Str} {f : List Str} (hten : 10 ≤ f.length) (htoken : f.getD 0 [] ≠ e)
    (hled : (f.getD 0 []).length < 8) : parseFields e f = .warning .ledSegmentTooShort := by
  rw [parseFields, if_neg (not_or.mpr ⟨htoken, Nat.not_lt.mpr hten⟩), if_pos hled]

/-- With a first field that passes, the lines decide (R208, R211). -/
theorem parseFields_of_led {e : Str} {f : List Str} (hten : 10 ≤ f.length) (htoken : f.getD 0 [] ≠ e)
    (hled : 8 ≤ (f.getD 0 []).length) :
    parseFields e f = ((shortLine f).elim (.commit (snapshotOfFields f)) fun i => .warning (.lineTooShort i)) := by
  rw [parseFields, if_neg (not_or.mpr ⟨htoken, Nat.not_lt.mpr hten⟩), if_neg (Nat.not_lt.mpr hled)]
  cases shortLine f <;> rfl

theorem shortLine_eq_find?_range' (f : List Str) :
    shortLine f = (List.range' 1 8).find? fun i => (f.getD i []).length < 40 := rfl

/-- The line that is named is the first short one. -/
theorem shortLine_eq_some {f : List Str} {i : Nat} (hlow : 1 ≤ i) (hhigh : i ≤ 8) (hi : (f.getD i []).length < 40)
    (hfirst : ∀ j, 1 ≤ j → j < i → 40 ≤ (f.getD j []).length) : shortLine f = some i := by
  rw [shortLine_eq_find?_range', List.find?_range'_eq_some]
  refine ⟨decide_eq_true hi, List.mem_range'_1.mpr ⟨hlow, by omega⟩, fun j hj hji => ?_⟩
  simpa using hfirst j hj hji

theorem shortLine_eq_none {f : List Str} (h : ∀ i, 1 ≤ i → i ≤ 8 → 40 ≤ (f.getD i []).length) : shortLine f = none := by
  rw [shortLine_eq_find?_range', List.find?_range'_eq_none]
  intro i hlow hhigh
  simpa using h i hlow (by omega)

/-! ## PARSE as a host operation -/

theorem execParse_of_silent {s : State} {str : Str} (h : parseString s.cfg str = .silent) :
    exec (.parse str) s = .next { s with out := s.out ++ [.result .void] } := by
  simp only [exec, execParse_eq, State.parse, h]
  rfl

theorem execParse_of_warning {s : State} {str : Str} {info : ReportInfo} (h : parseString s.cfg str = .warning info) :
    exec (.parse str) s = .next { s with out := s.out ++ [.report .parseWarning info, .result .void] } := by
  simp [exec, execParse_eq, State.parse, h, State.emit]

theorem execParse_of_commit {s : State} {str : Str} {v : Snapshot} (h : parseString s.cfg str = .commit v) :
    exec (.parse str) s = .next { s with snapshot := v, out := s.out ++ [.result .void] } := by
  simp only [exec, execParse_eq, State.parse, h]
  rfl

/-! ## The canonical strings of a poll cycle -/

/-- A response that decodes gives its canonical string, which has the led segment in it (R97). -/
theorem length_of_decodeResponse_ok {p : Params} {r : Option Bytes} {str : Str} (h : decodeResponse p r = .ok str) :
    8 ≤ str.length := by
  obtain ⟨-, -, -, hok⟩ := decodeTestsInOrder p r
  obtain ⟨raw, -, -, -, rfl⟩ := (hok str).mp h
  rw [canonical_length]
  omega

theorem canonOf_of_ok {p : Params} {r : Option Bytes} {str : Str} (h : decodeResponse p r = .ok str) :
    canonOf p r = str := by
  rw [canonOf, h]

theorem canonOf_of_err {p : Params} {r : Option Bytes} {e : DecodeError} (h : decodeResponse p r = .err e) :
    canonOf p r = errorText p e := by
  rw [canonOf, h]

/-- No canonical string of a poll cycle is as short as the placeholder (R99, R209). -/
theorem length_canonOf {p : Params} (hp : p.TextsOk) (r : Option Bytes) : 2 ≤ (canonOf p r).length := by
  obtain ⟨hnc, hcomm, hmalf, -⟩ := hp
  cases hd : decodeResponse p r with
  | ok str =>
    have := length_of_decodeResponse_ok hd
    rw [canonOf_of_ok hd]
    omega
  | err e =>
    rw [canonOf_of_err hd]
    cases e with
    | notConnected => exact hnc
    | communicationError => exact hcomm
    | malformed => exact hmalf

/-- Settles O18: a short string passes no check, and no string of a poll cycle is short. -/
theorem parseIsSilentOnPlaceholder : Obligations.ParseIsSilentOnPlaceholder :=
  ⟨fun _ s h => execParse_of_silent (parseString_of_short h s.cfg), fun _ r hp => length_canonOf hp r⟩

/-! ## The rejections -/

/-- The first piece of a split is the first field that PARSE reads. -/
theorem getD_zero_of_head? {f : List Str} {x : Str} (h : f.head? = some x) : f.getD 0 [] = x := by
  rw [List.getD_eq_getElem?_getD, ← List.head?_eq_getElem?, h, Option.getD_some]

/-- Settles O19: the first check of the fields. -/
theorem parseRejectsStructure : Obligations.ParseRejectsStructure := fun _ s hlen h =>
  execParse_of_warning <|
    (parseString_of_long hlen s.cfg).trans (parseFields_of_structure (h.imp_left getD_zero_of_head?))

/-- A string in which the separator does not occur is its one field (R11, D33). -/
theorem split_of_not_occurs {t s : Str} (h : occurs t s = false) : split s t = [s] := by
  induction s with
  | nil => rfl
  | cons c s ih =>
    simp only [occurs, Bool.or_eq_false_iff] at h
    obtain ⟨hhere, hlater⟩ := h
    have hrest : splitFrom t s 0 = [s] := ih hlater
    rw [split, splitFrom, hhere, if_neg Bool.false_ne_true, hrest]
    rfl

/-- Settles O20: a text without separator is one field, and one is fewer than ten. -/
theorem errorTextsAreRejected : Obligations.ErrorTextsAreRejected := by
  rintro s str ⟨hnc, hcomm, hmalf, hncSep, hcommSep, hmalfSep, -⟩ hmem
  obtain ⟨hlen, hsep⟩ : 2 ≤ str.length ∧ occurs s.cfg.sep str = false := by
    simp only [List.mem_cons, List.not_mem_nil, or_false] at hmem
    rcases hmem with rfl | rfl | rfl
    · exact ⟨hnc, hncSep⟩
    · exact ⟨hcomm, hcommSep⟩
    · exact ⟨hmalf, hmalfSep⟩
  have hsplit := split_of_not_occurs hsep
  exact ⟨hsplit, parseRejectsStructure str s hlen (.inr (by simp [hsplit]))⟩

/-- Settles O21: the checks of the led field and of the lines, in their order. -/
theorem parseRejectsShortFields : Obligations.ParseRejectsShortFields := by
  rintro str s f hlen rfl hten htoken
  refine ⟨fun hled => execParse_of_warning ?led, fun i hled hlow hhigh hi hfirst => execParse_of_warning ?line⟩
  case led => rw [parseString_of_long hlen, parseFields_of_short_led hten htoken hled]
  case line =>
    rw [parseString_of_long hlen, parseFields_of_led hten htoken hled, shortLine_eq_some hlow hhigh hi hfirst]
    rfl

/-! ## The commit -/

/-- Led k is lit exactly when character k is '1'; a missing character is none (R211, D34). -/
theorem ledOfStr_getElem (str : Str) {k : Nat} (hk : k < 8) : (ledOfStr str)[k] = decide (str[k]? = some '1') := by
  have hled : ledOfStr str = Vector.ofFn fun i : Fin 8 => str.getD i ' ' == '1' := rfl
  rw [hled, Vector.getElem_ofFn, List.getD_eq_getElem?_getD]
  cases str[k]? <;> simp [Bool.beq_eq_decide_eq]

/-- A field that is long enough gives its first 40 characters to the line, and none of the padding. -/
theorem lineOfStr_toList {str : Str} (h : 40 ≤ str.length) : (lineOfStr str).toList = str.take 40 := by
  simp [lineOfStr, Vector.toList, List.take_append_of_le_length h]

theorem snapshotOfFields_line (f : List Str) {i : Nat} (hi : i < 8) :
    (snapshotOfFields f).line[i] = lineOfStr (f.getD (i + 1) []) := by
  have hline : (snapshotOfFields f).line = Vector.ofFn fun j : Fin 8 => lineOfStr (f.getD (j + 1) []) := rfl
  rw [hline, Vector.getElem_ofFn]

/-- Settles O22: no check is left that fails, and the snapshot is that of the fields. -/
theorem parseCommitsFields : Obligations.ParseCommitsFields := by
  rintro str s f hlen rfl hten htoken hled hlines
  have hparse : parseString s.cfg str = .commit (snapshotOfFields (split str s.cfg.sep)) := by
    rw [parseString_of_long hlen, parseFields_of_led hten htoken hled, shortLine_eq_none hlines]
    rfl
  refine ⟨_, execParse_of_commit hparse, fun k hk => ledOfStr_getElem _ hk, fun i hi => ?_, rfl⟩
  rw [snapshotOfFields_line _ hi, lineOfStr_toList (hlines (i + 1) (by omega) (by omega))]

/-! ## The round trip -/

/-- A character of a join is one of its separator or of a piece. -/
theorem mem_join {t : Str} {ps : List Str} {c : Char} (h : c ∈ join t ps) : c ∈ t ∨ ∃ p ∈ ps, c ∈ p := by
  induction ps with
  | nil => simp [join] at h
  | cons x ps ih =>
    cases ps with
    | nil => exact .inr ⟨x, by simp, h⟩
    | cons y ps =>
      rw [join_cons t x (List.cons_ne_nil _ _), List.mem_append, List.mem_append] at h
      rcases h with (h | h) | h
      · exact .inr ⟨x, by simp, h⟩
      · exact .inl h
      · obtain ht | ⟨p, hp, hc⟩ := ih h
        · exact .inl ht
        · exact .inr ⟨p, List.mem_cons_of_mem x hp, hc⟩

theorem mem_digits_of_mem_dec {b : Byte} {c : Char} (h : c ∈ dec b) : c ∈ digits := by
  obtain ⟨hdigits, -⟩ := decimalNumeralOfByte b
  exact hdigits c h

theorem mem_digits_of_mem_bin8 {b : Byte} {c : Char} (h : c ∈ bin8 b) : c ∈ digits := by
  obtain ⟨k, -, rfl⟩ := List.mem_map.mp h
  split <;> decide

theorem mem_attrSegment {raw : Bytes} {c : Char} (h : c ∈ attrSegment raw) : c = ';' ∨ c ∈ digits := by
  obtain hc | ⟨p, hp, hc⟩ := mem_join h
  · exact .inl (List.mem_singleton.mp hc)
  · obtain ⟨k, -, rfl⟩ := List.mem_map.mp hp
    exact .inr (mem_digits_of_mem_dec hc)

/-- No token has a semicolon in it, so the segment of the attributes splits into its tokens again (R158, R212). -/
theorem split_attrSegment {raw : Bytes} (h : 369 ≤ raw.length) :
    split (attrSegment raw) [';'] = ((raw.drop 329).take 40).map dec := by
  rw [attrSegment_eq h]
  refine split_join (by simp) (List.ne_nil_of_length_pos (by simp; omega)) fun f hf c hc => ?_
  obtain ⟨b, -, rfl⟩ := List.mem_map.mp hf
  rintro hsemi
  rw [List.mem_singleton.mp hsemi] at hc
  exact absurd (mem_digits_of_mem_dec hc) (by decide)

/-- The condition W2 of R216: the separator shares no character with a field of a canonical string. -/
abbrev SepApart (p : Params) : Prop := ∀ c ∈ p.sep, c ≠ ';' ∧ c ∉ digits ∧ ∀ b, c ∉ p.glyph b

/-- Under W2 a canonical string splits into its ten fields again (R216). -/
theorem split_canonical {p : Params} (h : SepApart p) (raw : Bytes) :
    split (canonical p raw) p.sep = canonFields p raw := by
  refine split_join (by simp [Params.sep]) (by simp [canonFields]) fun f hf c hc hsep => ?_
  obtain ⟨hsemi, hdigit, hglyph⟩ := h c hsep
  simp only [canonFields, List.mem_cons, List.mem_append, List.not_mem_nil, or_false, List.mem_map] at hf
  obtain rfl | ⟨r, -, rfl⟩ | rfl := hf
  · exact hdigit (mem_digits_of_mem_bin8 hc)
  · obtain ⟨k, -, hk⟩ := List.mem_flatMap.mp hc
    exact hglyph _ hk
  · exact (mem_attrSegment hc).elim hsemi hdigit

theorem canonFields_row (p : Params) (raw : Bytes) {i : Nat} (hi : i < 8) :
    (canonFields p raw).getD (i + 1) [] = rowText p raw i := by
  simp [canonFields, rows, List.getD_eq_getElem?_getD, List.getElem?_append_left, hi]

theorem canonFields_attr (p : Params) (raw : Bytes) : (canonFields p raw).getD 9 [] = attrSegment raw := rfl

/-- A row of one-character glyphs has their characters in column order (R156, W1 of R216). -/
theorem rowText_of_singletons {p : Params} {raw : Bytes} {r : Nat}
    (h : ∀ c < 40, (p.glyph (raw.getD (9 + 40 * r + c) 0)).length = 1) :
    rowText p raw r = (List.range 40).map fun c => (p.glyph (raw.getD (9 + 40 * r + c) 0)).headD ' ' := by
  rw [rowText, List.map_eq_flatMap]
  refine List.flatMap_congr fun c hc => ?_
  obtain ⟨g, hg⟩ := List.length_eq_one_iff.mp (h c (List.mem_range.mp hc))
  have hbyte : p.glyph (byteAt raw (glyphOffset r c)) = [g] := hg
  rw [hbyte, hg, List.headD_cons]

/-- A line that holds such a row has the glyph of its byte at each place. -/
theorem line_char_of_singletons {p : Params} {raw : Bytes} {r c : Nat} {l : Line}
    (h : ∀ c < 40, (p.glyph (raw.getD (9 + 40 * r + c) 0)).length = 1) (hl : l.toList = rowText p raw r)
    (hc : c < 40) : [l[c]] = p.glyph (raw.getD (9 + 40 * r + c) 0) := by
  obtain ⟨g, hg⟩ := List.length_eq_one_iff.mp (h c hc)
  have hchar : l[c] = g := by
    rw [← Vector.getElem_toList (by simpa using hc)]
    simp only [hl, rowText_of_singletons h, List.getElem_map, List.getElem_range, hg, List.headD_cons]
  rw [hchar, hg]

/-- Settles O23: the ten fields come back whole, each is long enough, and the led segment, the rows and the tokens are read
off as they were made. -/
theorem parseOfDecodeRoundTrip : Obligations.ParseOfDecodeRoundTrip := by
  intro s r hlen hmark hglyph hsep htoken
  have hwide (i : Nat) (hi : i < 8) (c : Nat) (hc : c < 40) :
      (s.cfg.glyph (r.getD (9 + 40 * i + c) 0)).length = 1 := by
    have := hglyph (40 * i + c) (by omega)
    rwa [← Nat.add_assoc] at this
  have hrow (i : Nat) (hi : i < 8) := rowText_of_singletons (hwide i hi)
  have hdecode := decodeResponse_of_mark hlen hmark s.cfg
  have hlong : 2 ≤ (canonical s.cfg r).length := by have := length_of_decodeResponse_ok hdecode; omega
  have hlines (i : Nat) (hlow : 1 ≤ i) (hhigh : i ≤ 8) : 40 ≤ ((canonFields s.cfg r).getD i []).length := by
    obtain ⟨i, rfl⟩ := Nat.exists_eq_add_of_le' hlow
    rw [canonFields_row _ _ (by omega), hrow i (by omega)]
    simp
  obtain ⟨v, hexec, hled, hline, hattr⟩ := parseCommitsFields _ s _ hlong (split_canonical hsep r)
    (by simp [canonFields, rows]) htoken (ledSegment_length r).ge hlines
  refine ⟨_, v, hdecode, hexec, fun k hk => ?led, fun i hi c hc => ?line, ?attr⟩
  case led =>
    have hchar : ((canonFields s.cfg r).getD 0 [])[k]? = some (if (r.getD 8 0).getLsbD (7 - k) then '1' else '0') :=
      bin8_getElem? _ hk
    rw [hled k hk, hchar]
    cases (r.getD 8 0).getLsbD (7 - k) <;> rfl
  case line =>
    refine line_char_of_singletons (hwide i hi) ?_ hc
    rw [hline i hi, canonFields_row _ _ hi, hrow i hi, List.take_of_length_le (by simp)]
  case attr => rw [hattr, canonFields_attr, split_attrSegment (by omega)]

end Sys2Proof.Machine
end

section
/-!
SUPPORT. Proofs of the statements of spec/43_display_state_machine.md, POLL and GETSNAPSHOT: how a POLL starts, its commit step,
and a whole POLL.
-/

namespace Sys2Proof.Machine

variable {s t : State}

/-! ## GETSNAPSHOT -/

/-- Settles O24: the copy goes out, and at reset it is the open snapshot. -/
theorem getsnapshotCompletes : Obligations.GetsnapshotCompletes := ⟨fun _ => rfl, fun _ => rfl, rfl⟩

/-! ## The start -/

/-- A POLL that finds none in progress requests the display query (R201). -/
theorem execPoll_of_not_pollBusy (h : s.pollBusy = false) :
    execPoll s = requestExchange .poll cmdDisplay respSize { s with pollBusy := true } := by
  simp [execPoll, h]

/-- With the lock free and the link configured, outside POWERON, a POLL starts its exchange at once (R124, R201). -/
theorem execPoll_of_configured (h : s.pollBusy = false) (hb : s.linkBusy = false) (hp : s.seq.isPower = false)
    (hc : s.configured = true) : execPoll s =
      .next { s with pollBusy := true, linkBusy := true, cmdReg := cmdDisplay, nReg := respSize, rxPresent := false,
                     txbuf := (s.buildFrame cmdDisplay).txbuf, seq := .xOpen, xOwner := .poll, xOk := false } := by
  rw [execPoll_of_not_pollBusy h, requestExchange_of_free (by decide) (by exact hb)]
  exact grantExchange_of_configured (s := { s with pollBusy := true }) hp hc .poll cmdDisplay respSize

/-- Before a successful SETUP its exchange is over at once, with no response (R125, R201). -/
theorem execPoll_of_unconfigured (h : s.pollBusy = false) (hb : s.linkBusy = false) (hp : s.seq.isPower = false)
    (hc : s.configured = false) : execPoll s =
      .next { s with pollBusy := true, linkBusy := false, cmdReg := cmdDisplay, nReg := respSize, rxPresent := false,
                     txbuf := (s.buildFrame cmdDisplay).txbuf, pollResult := some none } := by
  rw [execPoll_of_not_pollBusy h, requestExchange_of_free (by decide) (by exact hb)]
  exact grantExchange_of_unconfigured (s := { s with pollBusy := true }) hp hc .poll cmdDisplay respSize

/-- Settles O41: the request of the display query, held, granted, or over at once. -/
theorem pollStarts : Obligations.PollStarts := by
  refine fun s h => ⟨fun hb => ?held, fun hb hp => ⟨(s.buildFrame cmdDisplay).txbuf, ?granted,
    s.buildFrame_txBytes cmdDisplay, fun a ha => s.buildFrame_read_other cmdDisplay ha⟩⟩
  case held =>
    exact (execPoll_of_not_pollBusy h).trans
      (requestExchange_of_busy (s := { s with pollBusy := true }) (by decide) hb .poll cmdDisplay)
  case granted =>
    split
    · rename_i hc
      exact execPoll_of_configured h hb hp hc
    · rename_i hc
      exact execPoll_of_unconfigured h hb hp (Bool.eq_false_of_not_eq_true hc)

/-! ## The commit step -/

theorem runMove_commit (r : Option Bytes) (s : State) : runMove (.commit r) s = .next (s.commitPoll r) := rfl

/-- Settles O42: whatever the response is, its canonical string is `lastDecoded`. -/
theorem commitWithoutChange : Obligations.CommitWithoutChange := by
  intro s r hok hnc hcomm hmalf
  have hsame : canonOf s.cfg r = s.lastDecoded := by
    cases hd : decodeResponse s.cfg r with
    | ok str => rw [canonOf_of_ok hd, hok str hd]
    | err e =>
      rw [canonOf_of_err hd]
      cases e with
      | notConnected => exact hnc hd
      | communicationError => exact hcomm hd
      | malformed => exact hmalf hd
  exact congrArg _ (State.commitPoll_same hsame)

/-- PARSE writes the snapshot and the trace, and nothing else (R208, R213). -/
theorem State.parse_eq (s : State) (str : Str) :
    s.parse str = { s with snapshot := (s.parse str).snapshot, out := (s.parse str).out } := by
  rcases s.parse_cases str with ⟨-, h⟩ | ⟨info, -, h⟩ | ⟨v, -, h⟩
  · rw [h]
  · rw [h]; rfl
  · rw [h]

/-- The commit step with a change, written out: the store, what PARSE leaves, the push, the return (R205, R206, R77). -/
theorem State.commitPoll_eq_of_changed {r : Option Bytes} {p : State} (h : canonOf s.cfg r ≠ s.lastDecoded)
    (hp : State.parse { s with lastDecoded := canonOf s.cfg r } (canonOf s.cfg r) = p) :
    s.commitPoll r = { s with
      lastDecoded := canonOf s.cfg r, snapshot := p.snapshot, pollBusy := false, pollResult := none,
      out := p.out ++ [.push p.snapshot, .result .void] } := by
  subst hp
  rw [State.commitPoll_changed h, State.publish, State.parse_eq]
  simp [State.emit]

/-- Settles O43: the commit step is the store, PARSE, the push and the return. -/
theorem commitWithChange : Obligations.CommitWithChange := by
  rintro s r _ rfl hne
  have ht := State.commitPoll_eq_of_changed hne rfl
  refine ⟨_, _, execParse_eq .., runMove_commit r s, ht.trans (by rw [ht]; rfl), ?_⟩
  simp [ht]

/-- The pushes after a commit step (R204, R206). -/
theorem State.pushes_commitPoll (s : State) (r : Option Bytes) :
    pushes (s.commitPoll r).out =
      if canonOf s.cfg r = s.lastDecoded then pushes s.out else pushes s.out ++ [(s.commitPoll r).snapshot] := by
  split
  · exact State.pushes_commitPoll_same ‹_›
  · exact State.pushes_commitPoll_changed ‹_›

/-- Settles O44: the first commit step leaves `lastDecoded` the canonical string that the second one meets. -/
theorem secondCommitPushesNothing : Obligations.SecondCommitPushesNothing := by
  intro s t t' u r hfirst hcfg hlast hsecond
  cases hfirst
  cases hsecond
  have hsame : canonOf t'.cfg r = t'.lastDecoded := by
    rw [hcfg, hlast, State.commitPoll_cfg, State.commitPoll_lastDecoded]
  have hlastKept : (t'.commitPoll r).lastDecoded = t'.lastDecoded := by rw [State.commitPoll_lastDecoded, hsame]
  refine ⟨?_, State.pushes_commitPoll_same hsame, hlastKept, State.commitPoll_snapshot_of_lastDecoded hlastKept⟩
  rw [State.pushes_commitPoll]
  split <;> simp

/-- Settles O45: every canonical string of a poll cycle is longer than the placeholder. -/
theorem firstPollAlwaysPushes : Obligations.FirstPollAlwaysPushes := by
  intro s r htexts hlast
  have hne : canonOf s.cfg r ≠ [' '] := fun h => by
    have := length_canonOf htexts r
    simp [h] at this
  refine ⟨_, runMove_commit r s, ?_, State.pushes_commitPoll_changed (by rwa [hlast])⟩
  rwa [State.commitPoll_lastDecoded]

/-! ## A whole POLL -/

/-- The read and the close of an exchange, the read meeting no error: its owner is given the bytes (R128, R129, R201). -/
theorem core_run_readAndDeliver {k : Nat} {bytes : Bytes} (hin : s.hostIn = []) (hh : s.held = []) (hq : s.seq = .xRead)
    (hlen : bytes.length = s.nReg) (hn : s.nReg ≤ rxCap) (hread : s.env.reads.head? = some (some bytes)) :
    Sys2Proof.core.run (k + 2) s = Sys2Proof.core.run k (State.deliver { s.afterRead s.nReg with
      linkBusy := false, portOpen := false, rxbuf := s.rxbuf.writeBlock 0 bytes, rxLen := s.nReg, rxPresent := true,
      seq := .idle, xOk := true,
      out := s.out ++ [.link (.readExact s.nReg 100 (some bytes)), .link .closePort] } s.xOwner (some bytes)) := by
  have hstored : (s.rxbuf.writeBlock 0 bytes).readBlock 0 s.nReg = bytes := hlen ▸ s.rxbuf.readBlock_writeBlock 0 bytes
  refine core_run_phase hin hh (hq ▸ nofun)
    (phaseStep_xRead_bytes hq (hlen ▸ State.readAnswer_of_head? hread) hlen hn) ?_
  refine core_run_phase (by simp [hin]) (by simp [hh]) nofun (phaseStep_xClose rfl hn) ?_
  simp [State.closeResult, hstored]

/-- With nothing to be presented and no caller held, a run of one step takes the commit step (R201). -/
theorem core_run_commit {r : Option Bytes} (hin : s.hostIn = []) (hh : s.held = []) (hq : s.seq = .idle)
    (hr : s.pollResult = some r) : Sys2Proof.core.run 1 s = .next (s.commitPoll r) := by
  have hp : s.presented = none := presented_eq_none (.inl (by simp [hin]))
  have hpop : s.popPort = s := by rw [State.popPort, hin, List.tail_nil, ← hin]
  refine (core_run_next (t := s.commitPoll r) ?_ 0).trans (core_run_zero _)
  rw [step_of_single hp (moves_of_commit hq hr hh), hpop, runMove_commit]

/-- The commit step makes no Link call (R205). -/
theorem State.linkTrace_commitPoll (s : State) (r : Option Bytes) :
    linkTrace (s.commitPoll r).out = linkTrace s.out := by
  by_cases h : canonOf s.cfg r = s.lastDecoded
  · simp [State.commitPoll_same h]
  · simp [State.commitPoll_changed h, State.publish_out]

/-- Settles O46: the start, the open and the write, the read and the close, and the commit step. -/
theorem pollRunsToItsCommit : Obligations.PollRunsToItsCommit := by
  intro s bytes hlen hb hq hc hbusy hh _ hin hopen hwrite hopens hwrites hread
  have hp : s.presented = some (.hostop 3 {}) := presented_eq_some (congrArg List.head? hin)
  have hstart := (step_of_some hp).trans
    (execPoll_of_configured (s := s.popPort) hbusy hb (by simp [hq, Phase.isPower]) hc)
  have hpop : s.popPort.hostIn = [] := by simp [hin]
  refine ⟨_, Eq.trans (core_run_next hstart 5) <|
    Eq.trans (core_run_openAndWrite hpop hh rfl hopen (State.head?_writes_of_writeAnswer hwrites hwrite)) <|
    Eq.trans (core_run_readAndDeliver hpop hh rfl hlen le_rfl hread) <|
    core_run_commit (by simp [hin]) (by simp [hh]) rfl rfl, ?_⟩
  have hframe : (s.popPort.buildFrame cmdDisplay).txbuf.readBlock 0 cmdLen = [0x55, 0x55, 0x55, 0x01, 0x80, 0x80] :=
    s.popPort.buildFrame_txBytes cmdDisplay
  refine ⟨?_, ?_, State.commitPoll_pollBusy .., ?_, ?_, ?_⟩
  · simp [State.linkTrace_commitPoll, State.txBytes, hframe, respSize]
  · simp
  · simp
  · simp
  · simp [State.pushes_commitPoll]

end Sys2Proof.Machine
end

section
/-!
SUPPORT. Proof of the statement of spec/60_exceptions.md: no instruction can fault, and a phase cannot either in a state that
meets the invariant.
-/

namespace Sys2Proof.Machine

variable {s : State} {f : Fault}

/-! ## No instruction faults -/

theorem grantExchange_ne_fault (owner : Caller) (c : Byte) (n : Nat) (s : State) : grantExchange owner c n s ≠ .fault f := by
  unfold grantExchange
  split
  · nofun
  · split <;> nofun

theorem requestExchange_ne_fault (owner : Caller) (c : Byte) (n : Nat) (s : State) :
    requestExchange owner c n s ≠ .fault f := by
  unfold requestExchange
  split
  · nofun
  · split
    · nofun
    · exact grantExchange_ne_fault owner c n s

theorem execSetup_ne_fault (pid : Option Str) (s : State) : execSetup pid s ≠ .fault f := by
  unfold execSetup
  split
  · nofun
  · cases pid <;> nofun

theorem execCmdframe_ne_fault (c : Byte) (s : State) : execCmdframe c s ≠ .fault f := by
  unfold execCmdframe
  split <;> nofun

theorem execPoweron_ne_fault (s : State) : execPoweron s ≠ .fault f := by
  unfold execPoweron
  split
  · nofun
  · split <;> nofun

theorem execPoll_ne_fault (s : State) : execPoll s ≠ .fault f := by
  unfold execPoll
  split
  · nofun
  · exact requestExchange_ne_fault _ _ _ _

/-- An instruction goes on or is refused, in every state: the accesses to RX are the phases' (R240). -/
theorem exec_ne_fault (i : Instr) (s : State) : exec i s ≠ .fault f := by
  cases i with
  | cmdframe c => exact execCmdframe_ne_fault c s
  | queryDisplay => exact requestExchange_ne_fault .host cmdDisplay respSize s
  | exchange c n => exact requestExchange_ne_fault .host c n s
  | setup pid => exact execSetup_ne_fault pid s
  | poweron => exact execPoweron_ne_fault s
  | poll => exact execPoll_ne_fault s
  | respDisplay | getsnapshot | decode | parse | cmap => nofun

theorem runRequest_ne_fault (r : Request) (s : State) : runRequest r s ≠ .fault f := by
  cases hd : decode r with
  | ok i =>
    rw [runRequest_of_ok hd]
    exact exec_ne_fault i s
  | error why =>
    obtain ⟨bytes, -, hanswer⟩ := runRequest_of_error hd s
    rw [hanswer]
    nofun

/-! ## No move of the block faults under the invariant -/

theorem State.NearsRelease.ne_fault {o : Host.Outcome State Fault Refusal} (h : s.NearsRelease o) : o ≠ .fault f := by
  rcases h with ⟨t, rfl, -⟩ | rfl <;> nofun

theorem phaseHold_ne_fault (s : State) : phaseHold s ≠ .fault f := by
  unfold phaseHold
  cases s.sleepAnswer <;> nofun

theorem phaseRestore_ne_fault (s : State) : phaseRestore s ≠ .fault f := by
  unfold phaseRestore
  split <;> nofun

/-- The phases of POWERON do not touch RX (R131). -/
theorem phaseStep_ne_fault_of_not_isExchange (hx : s.seq.isExchange = false) : phaseStep s ≠ .fault f := by
  unfold phaseStep
  cases hq : s.seq with
  | idle | pActive => nofun
  | pHold => exact phaseHold_ne_fault s
  | pRestore => exact phaseRestore_ne_fault s
  | xOpen | xWrite | xRead | xClose => exact absurd (hq ▸ hx) nofun

/-- An exchange nears its release, `nReg` and `rxLen` being within RX, and any other phase leaves RX alone. -/
theorem State.Inv.phaseStep_ne_fault (h : s.Inv) : phaseStep s ≠ .fault f := by
  cases hb : s.linkBusy with
  | true => exact (h.phaseStep_nearsRelease hb).ne_fault
  | false => exact phaseStep_ne_fault_of_not_isExchange (h.not_isExchange_of_free hb)

theorem grantWaiter_ne_fault (w : Waiter) (s : State) : grantWaiter w s ≠ .fault f := by
  cases w with
  | exchange owner c n => exact grantExchange_ne_fault owner c n s
  | frame c => nofun

theorem State.Inv.runMove_ne_fault (h : s.Inv) (m : Move) : runMove m s ≠ .fault f := by
  cases m with
  | phase => exact h.phaseStep_ne_fault
  | commit r => nofun
  | grant k =>
    cases hw : s.held[k]? with
    | none => simp [runMove, hw]
    | some w =>
      rw [runMove_grant hw]
      exact grantWaiter_ne_fault w _

theorem State.Inv.advance_ne_fault (h : s.Inv) : advance s ≠ .fault f := by
  rcases advance_cases s with ⟨-, ha⟩ | ⟨m, u, -, rfl | rfl, ha⟩ <;> rw [ha]
  · nofun
  · exact h.runMove_ne_fault m
  · exact (h.drawn _).runMove_ne_fault m

/-- Settles O54: a step is a request, which faults in no state, or the block's own move, which the invariant keeps within RX. -/
theorem stepNeverFaults : Obligations.StepNeverFaults := by
  intro s f h
  rcases step_cases s with ⟨r, -, hs⟩ | ⟨-, hs⟩ <;> rw [hs]
  · exact runRequest_ne_fault r s.popPort
  · exact h.popPort.advance_ne_fault

end Sys2Proof.Machine
end

section
/-!
SUPPORT. Proofs of the statements of spec/70_reset_and_hazards.md: the situations the spec refuses, and the state after reset.
-/

namespace Sys2Proof.Machine

variable {s : State}

/-! ## The situations of R278 -/

theorem requestExchange_of_tooLong {n : Nat} (hn : rxCap < n) (owner : Caller) (c : Byte) (s : State) :
    requestExchange owner c n s = .refused (.responseSizeExceedsBuffer n) := if_pos hn

theorem grantExchange_of_isPower (hp : s.seq.isPower = true) (owner : Caller) (c : Byte) (n : Nat) :
    grantExchange owner c n s = .refused .exchangeOverlapsPoweron := if_pos hp

/-- POWERON leaves the lock free, so a request meets it at the grant (R124, R268). -/
theorem requestExchange_of_isPower {n : Nat} (hn : n ≤ rxCap) (hb : s.linkBusy = false) (hp : s.seq.isPower = true)
    (owner : Caller) (c : Byte) : requestExchange owner c n s = .refused .exchangeOverlapsPoweron :=
  (requestExchange_of_free hn hb owner c).trans (grantExchange_of_isPower hp owner c n)

theorem State.poweronBlocked_iff : s.poweronBlocked = true ↔ s.linkBusy = true ∨ s.seq ≠ .idle := by
  simp [State.poweronBlocked, Phase.isIdle_eq_false]

theorem execPoweron_of_unconfigured (hc : s.configured = false) : execPoweron s = .refused .poweronBeforeSetup := by
  simp [execPoweron, hc]

theorem execPoweron_of_blocked (hc : s.configured = true) (h : s.linkBusy = true ∨ s.seq ≠ .idle) :
    execPoweron s = .refused .poweronOverlapsDriver := by
  simp [execPoweron, hc, State.poweronBlocked_iff.mpr h]

theorem execPoll_of_pollBusy (h : s.pollBusy = true) : execPoll s = .refused .pollReentered := if_pos h

/-- The contract of `readExact` allows exactly n bytes or err (R249). -/
theorem phaseStep_xRead_wrongCount {bytes : Bytes} (hq : s.seq = .xRead) (ha : s.readAnswer s.nReg = some bytes)
    (hlen : bytes.length ≠ s.nReg) : phaseStep s = .refused .linkAnswerOutsideContract := by
  simp [phaseStep, hq, phaseRead, ha, hlen]

/-- Settles O47: each guard of the driver and of POLL, with the situation of R278 it answers. -/
theorem refusedSituations : Obligations.RefusedSituations := by
  refine ⟨fun c n s hn => requestExchange_of_tooLong hn .host c s,
    fun c n s hn hb hp => requestExchange_of_isPower hn hb hp .host c,
    fun s hb hp => ⟨requestExchange_of_isPower (n := respSize) (by decide) hb hp .host cmdDisplay, fun hpoll => ?poll⟩,
    fun s hc h => execPoweron_of_blocked hc h, fun s hc => execPoweron_of_unconfigured hc,
    fun pid s h => if_pos (State.setupBlocked_iff.mpr h), fun s h => execPoll_of_pollBusy h,
    fun s bytes hq ha hlen => phaseStep_xRead_wrongCount hq ha hlen⟩
  case poll =>
    exact (execPoll_of_not_pollBusy hpoll).trans
      (requestExchange_of_isPower (s := { s with pollBusy := true }) (by decide) hb hp .poll cmdDisplay)

/-! ## The state after reset -/

/-- The open parameters come with the proof that they meet R8 and R193. -/
theorem State.reset_cfg_admissible : State.reset.cfg.Admissible := Config.deployed.admissible

/-- Nothing is in progress and no caller is held. -/
theorem State.reset_moves : State.reset.moves = [] := moves_of_free rfl rfl rfl

/-- After reset the block waits for the host (R261). -/
theorem step_reset : step State.reset = .next State.reset := by
  rw [step_of_none rfl]
  exact advance_idle (s := State.reset) State.reset_moves

/-- Settles O49: the values of R261 are those State.reset is built with; the constants are admissible, and nothing is to do. -/
theorem resetState : Obligations.ResetState := by
  obtain ⟨htexts, htoken, hentries, -⟩ := State.reset_cfg_admissible
  exact ⟨rfl, rfl, rfl, rfl, rfl, rfl, rfl, rfl, rfl, htexts, htoken, hentries, step_reset⟩

/-- The base case of the invariant: no phase is entered and no caller is held, so the clauses about phases and callers ask for
nothing; the ranges of `n_reg` and `rx_len` are those of their opaque reset values (log 3). -/
theorem State.reset_inv : State.reset.Inv where
  lock := rfl
  port := rfl
  ready h := absurd rfl h
  sizeInRange := Nat.le_of_lt_succ Config.nRegReset.isLt
  lengthInRange := Nat.le_of_lt_succ Config.rxLenReset.isLt
  txWf := ⟨.nil, nofun⟩
  rxWf := ⟨.nil, nofun⟩
  frameStands := nofun
  responseSize := nofun
  readStored := nofun
  repInRange := Nat.zero_le _
  repLeft := nofun
  linesActive := nofun
  heldInRange := nofun
  pollOnce := rfl
  linkOrder := rfl

/-- Settles O50: the base case of the invariant, and the constants that come with their proof. -/
theorem resetMeetsInvariant : Obligations.ResetMeetsInvariant := ⟨State.reset_inv, State.reset_cfg_admissible⟩

end Sys2Proof.Machine
end
